-- ==== Sys2Proof/Word.lean ====
section
/-! DEFINITION. The word types of the CHIP-8 CORE (00_scope.md section 6; 10_state.md R20, R24, R26). -/

namespace Sys2Proof

/-- An 8-bit value: a general register, a timer, a byte of memory, an immediate `nn`. -/
abbrev Byte := BitVec 8

/-- A 16-bit value: an instruction word, the cells I and pc, a return address. -/
abbrev Word := BitVec 16

/-- A 12-bit address field `nnn` (30_encoding.md R72). -/
abbrev Addr12 := BitVec 12

/-- The index of a general register, V0 to VF (10_state.md R20). -/
abbrev Reg := Fin 16

/-- The code of a hex key, 0x0 to 0xF (10_state.md R37). -/
abbrev Key := Fin 16

end Sys2Proof
end

