-- ==== Sys2Proof/Machine/Flags.lean ====
section
/-! DEFINITION. Every flag computation of the spec: what VF receives (10_state.md R23). The collision flag of Dxyn is
gathered while drawing, in Canvas.hit of Machine/Ops.lean. -/

namespace Sys2Proof.Machine

/-- Carry of 8xy4: `a + b > 255` (42_alu.md R137). -/
def carry (a b : Byte) : Bool := decide (255 < a.toNat + b.toNat)

/-- No-borrow of `a - b`: `a >= b` (42_alu.md R138, R140; log 10). -/
def noBorrow (a b : Byte) : Bool := decide (b.toNat ≤ a.toNat)

/-- The bit a right shift by 1 shifts out: bit 0 (42_alu.md R139). -/
def shiftedOutRight (a : Byte) : Bool := a.getLsbD 0

/-- The bit a left shift by 1 shifts out: bit 7 (42_alu.md R141). -/
def shiftedOutLeft (a : Byte) : Bool := a.getLsbD 7

/-- Overflow of Fx1E: `I + Vx > 0xFFF` (44_index_memory.md R161). -/
def indexOverflow (i : Word) (v : Byte) : Bool := decide (0xFFF < i.toNat + v.toNat)

end Sys2Proof.Machine
end

