-- ==== Sys2Proof/Syntax.lean ====
section
/-! DEFINITION. The instructions of the CORE: one constructor for each row of spec/opcode_table.json
(30_encoding.md R75), in the table's order. Register fields are indexes 0..15, immediates and addresses keep their
encoded widths, so every term has an encoding. -/

namespace Sys2Proof

/-- The 34 instructions (30_encoding.md R75). -/
inductive Instr where
  /-- 00E0, R100 -/
  | cls
  /-- 00EE, R110 -/
  | ret
  /-- 1nnn, R111 -/
  | jp (nnn : Addr12)
  /-- 2nnn, R112 -/
  | call (nnn : Addr12)
  /-- 3xnn, R113 -/
  | seImm (x : Reg) (nn : Byte)
  /-- 4xnn, R114 -/
  | sneImm (x : Reg) (nn : Byte)
  /-- 5xy0, R115 -/
  | seReg (x y : Reg)
  /-- 6xnn, R131 -/
  | ldImm (x : Reg) (nn : Byte)
  /-- 7xnn, R132 -/
  | addImm (x : Reg) (nn : Byte)
  /-- 8xy0, R133 -/
  | ldReg (x y : Reg)
  /-- 8xy1, R134 -/
  | orReg (x y : Reg)
  /-- 8xy2, R135 -/
  | andReg (x y : Reg)
  /-- 8xy3, R136 -/
  | xorReg (x y : Reg)
  /-- 8xy4, R137 -/
  | addReg (x y : Reg)
  /-- 8xy5, R138 -/
  | subReg (x y : Reg)
  /-- 8xy6, R139 -/
  | shr (x y : Reg)
  /-- 8xy7, R140 -/
  | subnReg (x y : Reg)
  /-- 8xyE, R141 -/
  | shl (x y : Reg)
  /-- 9xy0, R116 -/
  | sneReg (x y : Reg)
  /-- Annn, R160 -/
  | ldI (nnn : Addr12)
  /-- Bnnn, R117 -/
  | jpV0 (nnn : Addr12)
  /-- Cxnn, R142 -/
  | rnd (x : Reg) (nn : Byte)
  /-- Dxyn, R101; `n` is the row count 0..15 -/
  | drw (x y : Reg) (n : Fin 16)
  /-- Ex9E, R150 -/
  | skp (x : Reg)
  /-- ExA1, R151 -/
  | sknp (x : Reg)
  /-- Fx07, R152 -/
  | ldVxDT (x : Reg)
  /-- Fx0A, R153 -/
  | ldVxK (x : Reg)
  /-- Fx15, R154 -/
  | ldDTVx (x : Reg)
  /-- Fx18, R155 -/
  | ldSTVx (x : Reg)
  /-- Fx1E, R161 -/
  | addI (x : Reg)
  /-- Fx29, R162 -/
  | ldF (x : Reg)
  /-- Fx33, R164 -/
  | ldB (x : Reg)
  /-- Fx55, R165 -/
  | storeRegs (x : Reg)
  /-- Fx65, R166 -/
  | loadRegs (x : Reg)
  deriving DecidableEq, Repr

namespace Instr

/-- The row's mnemonic in spec/opcode_table.json, a label no rule depends on (30_encoding.md R79). -/
def mnemonic : Instr → String
  | .cls => "CLS"
  | .ret => "RET"
  | .jp _ => "JP_nnn"
  | .call _ => "CALL_nnn"
  | .seImm _ _ => "SE_Vx__nn"
  | .sneImm _ _ => "SNE_Vx__nn"
  | .seReg _ _ => "SE_Vx__Vy"
  | .ldImm _ _ => "LD_Vx__nn"
  | .addImm _ _ => "ADD_Vx__nn"
  | .ldReg _ _ => "LD_Vx__Vy"
  | .orReg _ _ => "OR_Vx__Vy"
  | .andReg _ _ => "AND_Vx__Vy"
  | .xorReg _ _ => "XOR_Vx__Vy"
  | .addReg _ _ => "ADD_Vx__Vy"
  | .subReg _ _ => "SUB_Vx__Vy"
  | .shr _ _ => "SHR_Vx____Vy"
  | .subnReg _ _ => "SUBN_Vx__Vy"
  | .shl _ _ => "SHL_Vx____Vy"
  | .sneReg _ _ => "SNE_Vx__Vy"
  | .ldI _ => "LD_I__nnn"
  | .jpV0 _ => "JP_V0__nnn"
  | .rnd _ _ => "RND_Vx__nn"
  | .drw _ _ _ => "DRW_Vx__Vy__n"
  | .skp _ => "SKP_Vx"
  | .sknp _ => "SKNP_Vx"
  | .ldVxDT _ => "LD_Vx__DT"
  | .ldVxK _ => "LD_Vx__K"
  | .ldDTVx _ => "LD_DT__Vx"
  | .ldSTVx _ => "LD_ST__Vx"
  | .addI _ => "ADD_I__Vx"
  | .ldF _ => "LD_F__Vx"
  | .ldB _ => "LD_B__Vx"
  | .storeRegs _ => "LD__I___Vx"
  | .loadRegs _ => "LD_Vx___I"

end Instr

end Sys2Proof
end

