-- ==== Sys2Proof/Decode.lean ====
section
/-! DEFINITION. From instruction words to instructions and back (30_encoding.md R70 to R78). Decoding reads only the
word (R78): the parameter HAS_FX33 is checked by the meaning of Fx33, as in the pseudocode of R164. -/

namespace Sys2Proof

/-- Why no instruction was read. -/
inductive DecodeError where
  /-- fewer than two bytes were given -/
  | truncated
  /-- the word matches no row of the opcode map (R76) -/
  | unknownOpcode (op : Word)
  deriving DecidableEq, Repr

/-! ### Fields of a word (R72) -/

/-- `h`, bits 15:12, the family selector. -/
def fieldH (op : Word) : BitVec 4 := op.extractLsb' 12 4

/-- `x`, bits 11:8. -/
def fieldX (op : Word) : Reg := (op.extractLsb' 8 4).toFin

/-- `y`, bits 7:4. -/
def fieldY (op : Word) : Reg := (op.extractLsb' 4 4).toFin

/-- `n`, bits 3:0. -/
def fieldN (op : Word) : Fin 16 := (op.extractLsb' 0 4).toFin

/-- `nn`, bits 7:0. -/
def fieldNN (op : Word) : Byte := op.extractLsb' 0 8

/-- `nnn`, bits 11:0. -/
def fieldNNN (op : Word) : Addr12 := op.extractLsb' 0 12

/-! ### Decoding (R74, R75) -/

/-- Family 0: the whole word selects. -/
def decodeSystem (op : Word) : Except DecodeError Instr :=
  if op = 0x00E0#16 then .ok .cls
  else if op = 0x00EE#16 then .ok .ret
  else .error (.unknownOpcode op)

/-- Families 5 and 9: the low nibble must be 0. -/
def decodeIfZero (op : Word) (i : Instr) : Except DecodeError Instr :=
  if fieldN op = 0 then .ok i else .error (.unknownOpcode op)

/-- Family 8: the low nibble selects the operation. -/
def decodeArith (op : Word) (x y : Reg) : Except DecodeError Instr :=
  match (fieldN op).val with
  | 0x0 => .ok (.ldReg x y)
  | 0x1 => .ok (.orReg x y)
  | 0x2 => .ok (.andReg x y)
  | 0x3 => .ok (.xorReg x y)
  | 0x4 => .ok (.addReg x y)
  | 0x5 => .ok (.subReg x y)
  | 0x6 => .ok (.shr x y)
  | 0x7 => .ok (.subnReg x y)
  | 0xE => .ok (.shl x y)
  | _ => .error (.unknownOpcode op)

/-- Family E: the low byte selects. -/
def decodeKeySkip (op : Word) (x : Reg) : Except DecodeError Instr :=
  match (fieldNN op).toNat with
  | 0x9E => .ok (.skp x)
  | 0xA1 => .ok (.sknp x)
  | _ => .error (.unknownOpcode op)

/-- Family F: the low byte selects. -/
def decodeMisc (op : Word) (x : Reg) : Except DecodeError Instr :=
  match (fieldNN op).toNat with
  | 0x07 => .ok (.ldVxDT x)
  | 0x0A => .ok (.ldVxK x)
  | 0x15 => .ok (.ldDTVx x)
  | 0x18 => .ok (.ldSTVx x)
  | 0x1E => .ok (.addI x)
  | 0x29 => .ok (.ldF x)
  | 0x33 => .ok (.ldB x)
  | 0x55 => .ok (.storeRegs x)
  | 0x65 => .ok (.loadRegs x)
  | _ => .error (.unknownOpcode op)

/-- The instruction a 16-bit word encodes; the family is selected by `h` (R74). -/
def decodeWord (op : Word) : Except DecodeError Instr :=
  match (fieldH op).toNat with
  | 0x0 => decodeSystem op
  | 0x1 => .ok (.jp (fieldNNN op))
  | 0x2 => .ok (.call (fieldNNN op))
  | 0x3 => .ok (.seImm (fieldX op) (fieldNN op))
  | 0x4 => .ok (.sneImm (fieldX op) (fieldNN op))
  | 0x5 => decodeIfZero op (.seReg (fieldX op) (fieldY op))
  | 0x6 => .ok (.ldImm (fieldX op) (fieldNN op))
  | 0x7 => .ok (.addImm (fieldX op) (fieldNN op))
  | 0x8 => decodeArith op (fieldX op) (fieldY op)
  | 0x9 => decodeIfZero op (.sneReg (fieldX op) (fieldY op))
  | 0xA => .ok (.ldI (fieldNNN op))
  | 0xB => .ok (.jpV0 (fieldNNN op))
  | 0xC => .ok (.rnd (fieldX op) (fieldNN op))
  | 0xD => .ok (.drw (fieldX op) (fieldY op) (fieldN op))
  | 0xE => decodeKeySkip op (fieldX op)
  | 0xF => decodeMisc op (fieldX op)
  | _ => .error (.unknownOpcode op)

/-- The word made of two bytes, the first the more significant (R71, 20_memory.md R53). -/
def wordOfBytes (hi lo : Byte) : Word := hi ++ lo

/-- The instruction at the head of a list of bytes, and the bytes after it. -/
def decode : List Byte → Except DecodeError (Instr × List Byte)
  | hi :: lo :: rest =>
    match decodeWord (wordOfBytes hi lo) with
    | .ok i => .ok (i, rest)
    | .error e => .error e
  | _ => .error .truncated

/-! ### Encoding (R72, R75) -/

/-- A 4-bit field that holds a register index or a row count. -/
def nibble (k : Fin 16) : BitVec 4 := BitVec.ofFin k

/-- `h nnn`. -/
def packAddr (h : BitVec 4) (nnn : Addr12) : Word := h ++ nnn

/-- `h x nn`. -/
def packImm (h : BitVec 4) (x : Reg) (nn : Byte) : Word := h ++ (nibble x ++ nn)

/-- `h x y n`. -/
def packRegs (h : BitVec 4) (x y : Reg) (n : BitVec 4) : Word := h ++ (nibble x ++ (nibble y ++ n))

/-- The word of an instruction, row by row of R75. -/
def encode : Instr → Word
  | .cls => 0x00E0#16
  | .ret => 0x00EE#16
  | .jp nnn => packAddr 0x1 nnn
  | .call nnn => packAddr 0x2 nnn
  | .seImm x nn => packImm 0x3 x nn
  | .sneImm x nn => packImm 0x4 x nn
  | .seReg x y => packRegs 0x5 x y 0x0
  | .ldImm x nn => packImm 0x6 x nn
  | .addImm x nn => packImm 0x7 x nn
  | .ldReg x y => packRegs 0x8 x y 0x0
  | .orReg x y => packRegs 0x8 x y 0x1
  | .andReg x y => packRegs 0x8 x y 0x2
  | .xorReg x y => packRegs 0x8 x y 0x3
  | .addReg x y => packRegs 0x8 x y 0x4
  | .subReg x y => packRegs 0x8 x y 0x5
  | .shr x y => packRegs 0x8 x y 0x6
  | .subnReg x y => packRegs 0x8 x y 0x7
  | .shl x y => packRegs 0x8 x y 0xE
  | .sneReg x y => packRegs 0x9 x y 0x0
  | .ldI nnn => packAddr 0xA nnn
  | .jpV0 nnn => packAddr 0xB nnn
  | .rnd x nn => packImm 0xC x nn
  | .drw x y n => packRegs 0xD x y (nibble n)
  | .skp x => packImm 0xE x 0x9E
  | .sknp x => packImm 0xE x 0xA1
  | .ldVxDT x => packImm 0xF x 0x07
  | .ldVxK x => packImm 0xF x 0x0A
  | .ldDTVx x => packImm 0xF x 0x15
  | .ldSTVx x => packImm 0xF x 0x18
  | .addI x => packImm 0xF x 0x1E
  | .ldF x => packImm 0xF x 0x29
  | .ldB x => packImm 0xF x 0x33
  | .storeRegs x => packImm 0xF x 0x55
  | .loadRegs x => packImm 0xF x 0x65

/-- The more significant byte of a word, stored at the lower address (R71). -/
def highByte (w : Word) : Byte := w.extractLsb' 8 8

/-- The less significant byte of a word, stored at the higher address (R71). -/
def lowByte (w : Word) : Byte := w.extractLsb' 0 8

/-- The two bytes of an instruction in memory order. -/
def encodeBytes (i : Instr) : List Byte := [highByte (encode i), lowByte (encode i)]

/-! ### The opcode map as a table (R75) -/

/-- One row of the opcode map: a word belongs to the row when `op &&& mask = pattern`. -/
structure OpcodeRow where
  mnemonic : String
  mask : Word
  pattern : Word
  deriving DecidableEq, Repr

/-- Whether a word belongs to a row. -/
def OpcodeRow.accepts (r : OpcodeRow) (op : Word) : Bool := (op &&& r.mask) == r.pattern

/-- The opcode map of R75, in its order. -/
def opcodeMap : List OpcodeRow :=
  [⟨"CLS", 0xFFFF, 0x00E0⟩, ⟨"RET", 0xFFFF, 0x00EE⟩, ⟨"JP_nnn", 0xF000, 0x1000⟩, ⟨"CALL_nnn", 0xF000, 0x2000⟩,
   ⟨"SE_Vx__nn", 0xF000, 0x3000⟩, ⟨"SNE_Vx__nn", 0xF000, 0x4000⟩, ⟨"SE_Vx__Vy", 0xF00F, 0x5000⟩,
   ⟨"LD_Vx__nn", 0xF000, 0x6000⟩, ⟨"ADD_Vx__nn", 0xF000, 0x7000⟩, ⟨"LD_Vx__Vy", 0xF00F, 0x8000⟩,
   ⟨"OR_Vx__Vy", 0xF00F, 0x8001⟩, ⟨"AND_Vx__Vy", 0xF00F, 0x8002⟩, ⟨"XOR_Vx__Vy", 0xF00F, 0x8003⟩]
  ++ [⟨"ADD_Vx__Vy", 0xF00F, 0x8004⟩, ⟨"SUB_Vx__Vy", 0xF00F, 0x8005⟩, ⟨"SHR_Vx____Vy", 0xF00F, 0x8006⟩,
   ⟨"SUBN_Vx__Vy", 0xF00F, 0x8007⟩, ⟨"SHL_Vx____Vy", 0xF00F, 0x800E⟩, ⟨"SNE_Vx__Vy", 0xF00F, 0x9000⟩,
   ⟨"LD_I__nnn", 0xF000, 0xA000⟩, ⟨"JP_V0__nnn", 0xF000, 0xB000⟩, ⟨"RND_Vx__nn", 0xF000, 0xC000⟩,
   ⟨"DRW_Vx__Vy__n", 0xF000, 0xD000⟩]
  ++ [⟨"SKP_Vx", 0xF0FF, 0xE09E⟩, ⟨"SKNP_Vx", 0xF0FF, 0xE0A1⟩, ⟨"LD_Vx__DT", 0xF0FF, 0xF007⟩,
   ⟨"LD_Vx__K", 0xF0FF, 0xF00A⟩, ⟨"LD_DT__Vx", 0xF0FF, 0xF015⟩, ⟨"LD_ST__Vx", 0xF0FF, 0xF018⟩,
   ⟨"ADD_I__Vx", 0xF0FF, 0xF01E⟩, ⟨"LD_F__Vx", 0xF0FF, 0xF029⟩, ⟨"LD_B__Vx", 0xF0FF, 0xF033⟩,
   ⟨"LD__I___Vx", 0xF0FF, 0xF055⟩, ⟨"LD_Vx___I", 0xF0FF, 0xF065⟩]

/-! ### The host's probe of the decoder -/

/-- The instruction word a table number stands for: its bits above `nbits` are 0. -/
def tableWord (nbits w : Nat) : Word := BitVec.ofNat 16 (w % 2 ^ nbits)

/-- The instruction the decoder reads from the bytes of a table word, laid out as memory holds them. -/
def decodeTableWord (nbits w : Nat) : Option Instr :=
  match decode [highByte (tableWord nbits w), lowByte (tableWord nbits w)] with
  | .ok (i, _) => some i
  | .error _ => none

end Sys2Proof
end

