-- ==== Sys2Proof/Config.lean ====
section
/-! DEFINITION. What the CORE's configuration fixes (00_scope.md R8, R9), the host's events, and the two
sources of free values. -/

namespace Sys2Proof

/-- The events through which the host changes the CORE (60_exceptions.md R220). -/
inductive Machine.HostEvent where
  | step
  | tick
  | keyDown (k : Key)
  | keyUp (k : Key)
  | renderAck
  | stop
  deriving DecidableEq, Repr, Inhabited

/-- The parameters the source leaves open (00_scope.md R9). State carries one `Config`, which no step changes, so a
statement about every state holds for every value of the parameters (log 1). -/
structure Config where
  /-- STACK_DEPTH: how many return addresses the call stack holds (R33). -/
  stackDepth : Nat
  /-- FONT: the 80 bytes at 0x000..0x04F (R31). -/
  font : Vector Byte 80
  /-- ZERO_INIT: whether registers, timers and free memory are 0 at construction (R251, R253). -/
  zeroInit : Bool
  /-- SHIFT_FROM_VY: whether 8xy6 and 8xyE shift Vy into Vx (R139, R141). -/
  shiftFromVy : Bool
  /-- HAS_FX33: whether Fx33 is an instruction (R164). -/
  hasFx33 : Bool
  deriving DecidableEq, Repr

namespace Config

/-- The font of 10_state.md R31. PRESUMED by the spec itself ("from general knowledge", D10); unsafe (log 3). -/
def standardFont : Vector Byte 80 :=
  #v[0xF0, 0x90, 0x90, 0x90, 0xF0,  0x20, 0x60, 0x20, 0x20, 0x70,
     0xF0, 0x10, 0xF0, 0x80, 0xF0,  0xF0, 0x10, 0xF0, 0x10, 0xF0,
     0x90, 0x90, 0xF0, 0x10, 0x10,  0xF0, 0x80, 0xF0, 0x10, 0xF0,
     0xF0, 0x80, 0xF0, 0x90, 0xF0,  0xF0, 0x10, 0x20, 0x40, 0x40,
     0xF0, 0x90, 0xF0, 0x90, 0xF0,  0xF0, 0x90, 0xF0, 0x10, 0xF0,
     0xF0, 0x90, 0xF0, 0x90, 0x90,  0xE0, 0x90, 0xE0, 0x90, 0xE0,
     0xF0, 0x80, 0x80, 0x80, 0xF0,  0xE0, 0x90, 0x90, 0x90, 0xE0,
     0xF0, 0x80, 0xF0, 0x80, 0xF0,  0xF0, 0x80, 0xF0, 0x80, 0x80]

/-- The values this spec takes for the parameters (00_scope.md R9). -/
def spec : Config :=
  { stackDepth := 16, font := standardFont, zeroInit := true, shiftFromVy := false, hasFx33 := true }

/-- draw8() (42_alu.md R143): the value of the n-th draw is free, nothing constrains it. DESIGN CHOICE, safe (log 24). -/
opaque draw8 : Nat → Byte

/-- The n-th event the host sends once the listed events of a state are over: nothing constrains it, so every endless
interleaving of the six events is admitted (60_exceptions.md R220). DESIGN CHOICE, safe (log 22). -/
opaque hostEvent : Nat → Machine.HostEvent

end Config

/-- MEM_SIZE (00_scope.md R8). -/
abbrev memSize : Nat := 4096

/-- PROG_START (00_scope.md R8). -/
abbrev progStart : Nat := 0x200

/-- ROM_MAX = 4096 - 0x200 (00_scope.md R8). -/
abbrev romMax : Nat := 3584

end Sys2Proof
end

