-- ==== Sys2Proof/Machine/State.lean ====
section
/-! DEFINITION. The state of the machine (10_state.md R20 to R44), the reasons a run halts, and the state after reset. -/

namespace Sys2Proof.Machine

/-- The reasons for which a step is fatal (60_exceptions.md R203, codes 1 to 6). Each is recorded in the diagnostic of
a halted machine. Code 7, ROM_TOO_LARGE, arises at construction, where no machine exists: see `Fault`. -/
inductive FatalReason where
  /-- code 1: a fetch with pc + 1 > 0xFFF (R204) -/
  | fetchRange
  /-- code 2: the word matches no row of the opcode map (R205) -/
  | unknownOpcode
  /-- code 3: 00EE with an empty call stack (R206) -/
  | stackUnderflow
  /-- code 4: 2nnn with a full call stack (R207) -/
  | stackOverflow
  /-- code 5: a data address above 0xFFF (R208) -/
  | memRange
  /-- code 6: a key index above 0xF (R209) -/
  | keyRange
  deriving DecidableEq, Repr

/-- The diagnostic record of a halted machine (10_state.md R43). -/
structure Diag where
  reason : FatalReason
  /-- pc when the failing step began -/
  pc : Word
  /-- the word that step fetched, or none when the fetch itself failed -/
  opcode : Option Word
  deriving DecidableEq, Repr

/-- The run status (10_state.md R41). -/
inductive Status where
  | running
  | halted (d : Diag)
  | stopped
  deriving DecidableEq, Repr

/-- The key-wait latch (10_state.md R38): NONE, or AWAIT(x). -/
inductive Latch where
  | none
  | await (x : Reg)
  deriving DecidableEq, Repr

/-- The output events of the CORE (60_exceptions.md R223). -/
inductive Output where
  | beep
  deriving DecidableEq, Repr

/-- Memory: the bytes that differ from what an unlisted address reads as, addresses strictly rising (log 31). -/
abbrev Memory := List Host.Cell

/-- The framebuffer: 32 rows of 64 one-bit pixels; bit `c` of row `r` is pixel `fb[c][r]` (10_state.md R34; log 31). -/
abbrev Framebuffer := Vector (BitVec 64) 32

/-- The state of the CORE: exactly the fields of 10_state.md R44. -/
structure CoreState where
  /-- V0..VF (R20) -/
  V : Vector Byte 16
  /-- the address register (R24) -/
  I : Word
  /-- the program counter (R26) -/
  pc : Word
  /-- the call stack, its top first (R32) -/
  stack : List Word
  /-- the memory bank (R30) -/
  mem : Memory
  /-- the framebuffer (R34) -/
  fb : Framebuffer
  /-- the dirty flag (R36) -/
  dirty : Bool
  /-- the key state, true when pressed (R37) -/
  key : Vector Bool 16
  /-- the key-wait latch (R38) -/
  latch : Latch
  /-- the delay timer (R39) -/
  DT : Byte
  /-- the sound timer (R40) -/
  ST : Byte
  /-- the run status (R41) -/
  status : Status
  deriving DecidableEq, Repr

/-- The CORE's state and, beside it, five fields of the MODEL: the configuration it was built with, the host's listed
events and the count of its free ones, the outputs so far and the count of free bytes drawn. -/
structure State extends CoreState where
  /-- the parameters of 00_scope.md R9; no step changes them (log 1) -/
  cfg : Config
  /-- the coming events that are known, the next one first; after them the host sends free events (R220; log 22) -/
  pending : List HostEvent
  /-- how many free events the host has sent (R220; log 22) -/
  freeEvents : Nat
  /-- the outputs emitted so far, the oldest first (R223; log 23) -/
  trace : List Output
  /-- how many free bytes have been drawn (42_alu.md R143; log 24) -/
  draws : Nat
  deriving DecidableEq, Repr

/-- Why no machine answers. No step raises a fault: a fatal condition is a next state whose status is HALTED (R200). -/
inductive Fault where
  /-- Raised by `construct` alone, for a ROM image longer than 3584 bytes (60_exceptions.md R210, code 7): no machine
  exists. Safe: no statement about a running machine depends on it. -/
  | romTooLarge
  deriving DecidableEq, Repr

/-- Why the model gives no meaning. -/
inductive Refusal where
  /-- Raised by an arm of `exec` for an instruction that has no meaning yet; every instruction has one, so nothing
  raises it. Safe: it stops where the hardware goes on. -/
  | notModelled (mnemonic : String)
  deriving DecidableEq, Repr

/-- The machine right after construction from an empty ROM image, under the parameter values the spec takes
(70_reset_and_hazards.md R251 to R254, R257; log 4, 5, 6, 34). -/
def State.reset : State :=
  { V := Vector.replicate 16 0
    I := 0
    pc := 0x200
    stack := []
    mem := []
    fb := Vector.replicate 32 0
    dirty := false
    key := Vector.replicate 16 false
    latch := .none
    DT := 0
    ST := 0
    status := .running
    cfg := Config.spec
    pending := []
    freeEvents := 0
    trace := []
    draws := 0 }

end Sys2Proof.Machine
end

