-- ==== Sys2Proof/Machine/Ops.lean ====
section
/-! DEFINITION. The named operations over memory, registers, framebuffer, stack and status that every meaning is
written with. A meaning touches State through these alone. -/

namespace Sys2Proof.Machine

/-- The answer of an instruction or of a step. -/
abbrev Result := Host.Outcome State Fault Refusal

/-! ### Memory (20_memory.md) -/

/-- What an address that is not listed reads as: its contents after construction under the spec's parameter values,
FONT below 0x050 and 0 elsewhere (70_reset_and_hazards.md R251; log 3, 5). -/
def Memory.unlisted (a : Nat) : Byte :=
  if h : a < 80 then Config.standardFont[a] else 0

/-- MemRead(a, 1) (20_memory.md R52, R56), once the address is known to be in range. -/
def Memory.read : Memory → Nat → Byte
  | [], a => Memory.unlisted a
  | (b, w) :: rest, a => if a = b then w else Memory.read rest a

/-- MemWrite(a, 1, v) (20_memory.md R52, R56), once the address is known to be in range. It keeps the canonical form:
an entry is listed only while it differs from the unlisted value. -/
def Memory.write : Memory → Nat → Byte → Memory
  | [], a, v => if v = Memory.unlisted a then [] else [(a, v)]
  | (b, w) :: rest, a, v =>
    if a < b then
      if v = Memory.unlisted a then (b, w) :: rest else (a, v) :: (b, w) :: rest
    else if a = b then
      if v = Memory.unlisted a then rest else (a, v) :: rest
    else (b, w) :: Memory.write rest a v

/-- `n` bytes at ascending addresses (20_memory.md R54). -/
def Memory.readBytes (m : Memory) (a : Nat) : Nat → List Byte
  | 0 => []
  | n + 1 => m.read a :: Memory.readBytes m (a + 1) n

/-- Bytes written at ascending addresses, the first at `a` (20_memory.md R54). -/
def Memory.writeBytes (m : Memory) (a : Nat) : List Byte → Memory
  | [] => m
  | v :: vs => Memory.writeBytes (m.write a v) (a + 1) vs

/-- Every listed address is at least `lo`, the addresses rise strictly and stay below 0x1000, and no entry equals the
unlisted value. -/
def Memory.wfFrom (lo : Nat) : Memory → Bool
  | [] => true
  | (a, v) :: rest => decide (lo ≤ a) && decide (a < memSize) && decide (v ≠ Memory.unlisted a) && Memory.wfFrom (a + 1) rest

/-- The canonical form of memory (log 31). -/
def Memory.wf (m : Memory) : Bool := Memory.wfFrom 0 m

/-- Whether the `n` addresses from `base` on are all in 0x000..0xFFF, as natural numbers without wrap-around; no
address at all is in range (20_memory.md R52, 44_index_memory.md R163; log 27). -/
def inRange (base n : Nat) : Bool := decide (n = 0 ∨ base + n ≤ memSize)

/-! ### One setter for each field a step can change -/

namespace State

def setV (s : State) (v : Vector Byte 16) : State := { s with V := v }
def setI (s : State) (i : Word) : State := { s with I := i }
def setPc (s : State) (p : Word) : State := { s with pc := p }
def setStack (s : State) (k : List Word) : State := { s with stack := k }
def setMem (s : State) (m : Memory) : State := { s with mem := m }
def setFb (s : State) (f : Framebuffer) : State := { s with fb := f }
def setDirty (s : State) (d : Bool) : State := { s with dirty := d }
def setKeys (s : State) (k : Vector Bool 16) : State := { s with key := k }
def setLatch (s : State) (l : Latch) : State := { s with latch := l }
def setDT (s : State) (t : Byte) : State := { s with DT := t }
def setST (s : State) (t : Byte) : State := { s with ST := t }
def setStatus (s : State) (c : Status) : State := { s with status := c }
def setPending (s : State) (p : List HostEvent) : State := { s with pending := p }
def setFreeEvents (s : State) (n : Nat) : State := { s with freeEvents := n }
def setTrace (s : State) (o : List Output) : State := { s with trace := o }
def setDraws (s : State) (n : Nat) : State := { s with draws := n }

/-! ### General registers (10_state.md R20 to R23) -/

/-- `V[x]`. -/
def reg (s : State) (x : Reg) : Byte := s.V[x.val]

/-- `V[x] <- v`. -/
def setReg (s : State) (x : Reg) (v : Byte) : State := s.setV (s.V.set x.val v)

/-- VF as a flag: 1 when the condition holds, else 0 (10_state.md R22). -/
def setFlag (s : State) (b : Bool) : State := s.setReg 15 (if b then 1 else 0)

/-- `V[x] <- v` and then VF <- flag: the flag is written last, so it stays when x = 15 (42_alu.md R144; log 11). -/
def setRegFlag (s : State) (x : Reg) (v : Byte) (b : Bool) : State := (s.setReg x v).setFlag b

/-! ### Program counter (10_state.md R27) -/

/-- `pc <- pc + 2`. -/
def advance (s : State) : State := s.setPc (s.pc + 2)

/-- A conditional skip: pc + 4 when the condition holds, else pc + 2. -/
def skipIf (s : State) (c : Bool) : State := s.setPc (if c then s.pc + 4 else s.pc + 2)

/-! ### Fatal conditions (60_exceptions.md R200 to R203) -/

/-- `raise Fatal(reason)` in a step that fetched `op` (none when the fetch failed): status becomes HALTED with the
diagnostic, and nothing else changes (R200, R201; log 25, 26). This is how the CORE takes every exception it has; there
is no return from one (R213). -/
def fatal (s : State) (reason : FatalReason) (op : Option Word) : State :=
  s.setStatus (.halted { reason := reason, pc := s.pc, opcode := op })

/-! ### Framebuffer (10_state.md R34) -/

/-- The pixel at column `c`, row `r`. -/
def pixel (s : State) (c : Fin 64) (r : Fin 32) : Bool := s.fb[r.val].getLsbD c.val

end State

/-- The pixel of a framebuffer at column `c`, row `r`. -/
def Framebuffer.pixel (f : Framebuffer) (c : Fin 64) (r : Fin 32) : Bool := f[r.val].getLsbD c.val

/-- `fb[c][r] <- fb[c][r] XOR 1`. -/
def Framebuffer.flip (f : Framebuffer) (c : Fin 64) (r : Fin 32) : Framebuffer :=
  f.set r.val (f[r.val] ^^^ BitVec.twoPow 64 c.val)

/-- Every pixel 0. -/
def Framebuffer.blank : Framebuffer := Vector.replicate 32 0

/-- A framebuffer being drawn on, and whether a set pixel has met a sprite bit so far (40_display.md R101). -/
abbrev Canvas := Framebuffer × Bool

/-- One sprite bit of 1 at column `c`, row `r`: note a collision, then invert the pixel (R102, R104). -/
def Canvas.hit (k : Canvas) (c : Fin 64) (r : Fin 32) : Canvas := (k.1.flip c r, k.2 || k.1.pixel c r)

/-- Column `c` of a sprite row: bit `7 - c` of the byte, at x coordinate (vx + c) mod 64 (R102, R103; log 30). -/
def Canvas.drawColumn (b : Byte) (vx : Nat) (r : Fin 32) (k : Canvas) (c : Nat) : Canvas :=
  if b.getLsbD (7 - c) then k.hit (Fin.ofNat 64 (vx + c)) r else k

/-- One sprite row, columns 0 to 7. -/
def Canvas.drawRow (k : Canvas) (b : Byte) (vx : Nat) (r : Fin 32) : Canvas :=
  (List.range 8).foldl (Canvas.drawColumn b vx r) k

/-- The rows of a sprite from y coordinate `vy` down, each wrapped modulo 32 (R101, R103). -/
def Canvas.drawSprite (k : Canvas) (vx vy : Nat) : List Byte → Canvas
  | [] => k
  | b :: rows => Canvas.drawSprite (k.drawRow b vx (Fin.ofNat 32 vy)) vx (vy + 1) rows

end Sys2Proof.Machine
end

