-- ==== Sys2Proof/Machine/Operands.lean ====
section
/-! DEFINITION. Every operand form of the spec beyond a plain register or an immediate byte. -/

namespace Sys2Proof.Machine

/-- An address field zero-extended to the width of pc and I (30_encoding.md R73). -/
def address (nnn : Addr12) : Word := nnn.setWidth 16

/-- A register's value zero-extended to 16 bits (41_control_flow.md R117, 44_index_memory.md R162). -/
def extend (v : Byte) : Word := v.setWidth 16

/-- The operand of a shift: Vx, or Vy when SHIFT_FROM_VY is true (42_alu.md R139, R141; log 8). -/
def State.shiftOperand (s : State) (x y : Reg) : Byte := if s.cfg.shiftFromVy then s.reg y else s.reg x

/-- A register's value as a key index; none above 0xF (43_keys_timers.md R156; log 16). -/
def keyIndex (v : Byte) : Option Key := if h : v.toNat < 16 then some ⟨v.toNat, h⟩ else none

/-- `key[k]` (10_state.md R37). -/
def State.keyPressed (s : State) (k : Key) : Bool := s.key[k.val]

/-- `key[k] <- b`. -/
def State.setKey (s : State) (k : Key) (b : Bool) : State := s.setKeys (s.key.set k.val b)

/-- The `n` bytes at I, a sprite's rows (40_display.md R101). -/
def State.bytesAtI (s : State) (n : Nat) : List Byte := s.mem.readBytes s.I.toNat n

/-- The values of V0..Vx, in order (44_index_memory.md R165). -/
def State.regsUpTo (s : State) (x : Reg) : List Byte := s.V.toList.take (x.val + 1)

/-- The register file after V0..Vx have been loaded from the bytes at I (44_index_memory.md R166). -/
def State.loadedRegs (s : State) (x : Reg) : Vector Byte 16 :=
  Vector.ofFn fun i => if i ≤ x then s.mem.read (s.I.toNat + i.val) else s.reg i

/-- The three decimal digits of a byte, hundreds first (44_index_memory.md R164). -/
def decimalDigits (v : Byte) : List Byte :=
  [BitVec.ofNat 8 (v.toNat / 100), BitVec.ofNat 8 (v.toNat / 10 % 10), BitVec.ofNat 8 (v.toNat % 10)]

/-- `s mod 0x1000` of the sum I + Vx (44_index_memory.md R161). -/
def indexSum (i : Word) (v : Byte) : Word := BitVec.ofNat 16 ((i.toNat + v.toNat) % 0x1000)

/-- The word at pc, big-endian (20_memory.md R53). -/
def State.fetchWord (s : State) : Word := wordOfBytes (s.mem.read s.pc.toNat) (s.mem.read (s.pc.toNat + 1))

end Sys2Proof.Machine
end

