-- ==== Sys2Proof/Machine/Alu.lean ====
section
/-! DEFINITION. The register and arithmetic-logic instructions (42_alu.md). Operands are read from the state before the
instruction, the result is written first and the flag second (R144; log 11). -/

namespace Sys2Proof.Machine

/-- 6xnn (R131). -/
def execLdImm (x : Reg) (nn : Byte) (s : State) : Result :=
  .next (s.setReg x nn).advance

/-- 7xnn (R132; 90_conflicts.md C1): VF is not written. -/
def execAddImm (x : Reg) (nn : Byte) (s : State) : Result :=
  .next (s.setReg x (s.reg x + nn)).advance

/-- 8xy0 (R133). -/
def execLdReg (x y : Reg) (s : State) : Result :=
  .next (s.setReg x (s.reg y)).advance

/-- 8xy1 (R134): VF is unchanged (log 12). -/
def execOrReg (x y : Reg) (s : State) : Result :=
  .next (s.setReg x (s.reg x ||| s.reg y)).advance

/-- 8xy2 (R135): VF is unchanged (log 12). -/
def execAndReg (x y : Reg) (s : State) : Result :=
  .next (s.setReg x (s.reg x &&& s.reg y)).advance

/-- 8xy3 (R136): VF is unchanged (log 12). -/
def execXorReg (x y : Reg) (s : State) : Result :=
  .next (s.setReg x (s.reg x ^^^ s.reg y)).advance

/-- 8xy4 (R137; 90_conflicts.md C7). -/
def execAddReg (x y : Reg) (s : State) : Result :=
  .next (s.setRegFlag x (s.reg x + s.reg y) (carry (s.reg x) (s.reg y))).advance

/-- 8xy5 (R138; log 10). -/
def execSubReg (x y : Reg) (s : State) : Result :=
  .next (s.setRegFlag x (s.reg x - s.reg y) (noBorrow (s.reg x) (s.reg y))).advance

/-- 8xy6 (R139; log 8). -/
def execShr (x y : Reg) (s : State) : Result :=
  .next (s.setRegFlag x (s.shiftOperand x y >>> 1) (shiftedOutRight (s.shiftOperand x y))).advance

/-- 8xy7 (R140; log 10). -/
def execSubnReg (x y : Reg) (s : State) : Result :=
  .next (s.setRegFlag x (s.reg y - s.reg x) (noBorrow (s.reg y) (s.reg x))).advance

/-- 8xyE (R141; log 8). -/
def execShl (x y : Reg) (s : State) : Result :=
  .next (s.setRegFlag x (s.shiftOperand x y <<< 1) (shiftedOutLeft (s.shiftOperand x y))).advance

/-- Cxnn (R142, R143): a fresh free byte, masked (log 24). -/
def execRnd (x : Reg) (nn : Byte) (s : State) : Result :=
  .next ((s.setReg x (Config.draw8 s.draws &&& nn)).setDraws (s.draws + 1)).advance

end Sys2Proof.Machine
end

