-- ==== Sys2Proof/Machine/ControlFlow.lean ====
section
/-! DEFINITION. The control-flow instructions (41_control_flow.md). No target is checked when it is written to pc; the
next fetch meets an address out of range (R204). -/

namespace Sys2Proof.Machine

/-- 00EE (R110): the popped value is the address of the call, so execution goes on 2 bytes after it. -/
def execRet (s : State) : Result :=
  match s.stack with
  | [] => .next (s.fatal .stackUnderflow (some (encode .ret)))
  | a :: rest => .next ((s.setStack rest).setPc (a + 2))

/-- 1nnn (R111). -/
def execJp (nnn : Addr12) (s : State) : Result :=
  .next (s.setPc (address nnn))

/-- 2nnn (R112): the address of the call itself is pushed. -/
def execCall (nnn : Addr12) (s : State) : Result :=
  if s.stack.length < s.cfg.stackDepth then
    .next ((s.setStack (s.pc :: s.stack)).setPc (address nnn))
  else
    .next (s.fatal .stackOverflow (some (encode (.call nnn))))

/-- 3xnn (R113). -/
def execSeImm (x : Reg) (nn : Byte) (s : State) : Result :=
  .next (s.skipIf (s.reg x == nn))

/-- 4xnn (R114). -/
def execSneImm (x : Reg) (nn : Byte) (s : State) : Result :=
  .next (s.skipIf (s.reg x != nn))

/-- 5xy0 (R115). -/
def execSeReg (x y : Reg) (s : State) : Result :=
  .next (s.skipIf (s.reg x == s.reg y))

/-- 9xy0 (R116). -/
def execSneReg (x y : Reg) (s : State) : Result :=
  .next (s.skipIf (s.reg x != s.reg y))

/-- Bnnn (R117): no modulo. -/
def execJpV0 (nnn : Addr12) (s : State) : Result :=
  .next (s.setPc (extend (s.reg 0) + address nnn))

end Sys2Proof.Machine
end

