-- ==== Sys2Proof/Machine/Display.lean ====
section
/-! DEFINITION. The display instructions (40_display.md). -/

namespace Sys2Proof.Machine

/-- 00E0 (R100). Setting `dirty` is the spec's decision D24 (log 20). -/
def execCls (s : State) : Result :=
  .next ((s.setFb Framebuffer.blank).setDirty true).advance

/-- Dxyn (R101 to R106): both coordinates and the sprite bytes are read from the state before the instruction; all
addresses are checked before any write; VF receives the collision flag. -/
def execDrw (x y : Reg) (n : Fin 16) (s : State) : Result :=
  if inRange s.I.toNat n.val then
    let drawn := Canvas.drawSprite (s.fb, false) (s.reg x).toNat (s.reg y).toNat (s.bytesAtI n.val)
    .next (((s.setFb drawn.1).setDirty true).setFlag drawn.2).advance
  else
    .next (s.fatal .memRange (some (encode (.drw x y n))))

end Sys2Proof.Machine
end

