-- ==== Sys2Proof/Machine/IndexMemory.lean ====
section
/-! DEFINITION. The address-register and memory instructions (44_index_memory.md). Every address is checked before
anything is written, and none of the memory instructions changes I (R163; log 13). -/

namespace Sys2Proof.Machine

/-- Annn (R160; log 15). -/
def execLdI (nnn : Addr12) (s : State) : Result :=
  .next (s.setI (address nnn)).advance

/-- Fx1E (R161): VF is written on every execution. -/
def execAddI (x : Reg) (s : State) : Result :=
  .next ((s.setI (indexSum s.I (s.reg x))).setFlag (indexOverflow s.I (s.reg x))).advance

/-- Fx29 (R162): Vx is not masked (log 17). -/
def execLdF (x : Reg) (s : State) : Result :=
  .next (s.setI (extend (s.reg x) * 5)).advance

/-- Fx33 (R164): an unknown opcode when HAS_FX33 is false (log 9). -/
def execLdB (x : Reg) (s : State) : Result :=
  if s.cfg.hasFx33 then
    if inRange s.I.toNat 3 then
      .next (s.setMem (s.mem.writeBytes s.I.toNat (decimalDigits (s.reg x)))).advance
    else
      .next (s.fatal .memRange (some (encode (.ldB x))))
  else
    .next (s.fatal .unknownOpcode (some (encode (.ldB x))))

/-- Fx55 (R165). -/
def execStoreRegs (x : Reg) (s : State) : Result :=
  if inRange s.I.toNat (x.val + 1) then
    .next (s.setMem (s.mem.writeBytes s.I.toNat (s.regsUpTo x))).advance
  else
    .next (s.fatal .memRange (some (encode (.storeRegs x))))

/-- Fx65 (R166). -/
def execLoadRegs (x : Reg) (s : State) : Result :=
  if inRange s.I.toNat (x.val + 1) then
    .next (s.setV (s.loadedRegs x)).advance
  else
    .next (s.fatal .memRange (some (encode (.loadRegs x))))

end Sys2Proof.Machine
end

