-- ==== Sys2Proof/Machine/KeysTimers.lean ====
section
/-! DEFINITION. The key and timer instructions (43_keys_timers.md). -/

namespace Sys2Proof.Machine

/-- Ex9E (R150, R156). -/
def execSkp (x : Reg) (s : State) : Result :=
  match keyIndex (s.reg x) with
  | some k => .next (s.skipIf (s.keyPressed k))
  | none => .next (s.fatal .keyRange (some (encode (.skp x))))

/-- ExA1 (R151, R156). -/
def execSknp (x : Reg) (s : State) : Result :=
  match keyIndex (s.reg x) with
  | some k => .next (s.skipIf (!s.keyPressed k))
  | none => .next (s.fatal .keyRange (some (encode (.sknp x))))

/-- Fx07 (R152). -/
def execLdVxDT (x : Reg) (s : State) : Result :=
  .next (s.setReg x s.DT).advance

/-- Fx0A (R153): pc is not changed; the key-wait resolution advances it (60_exceptions.md R226). -/
def execLdVxK (x : Reg) (s : State) : Result :=
  .next (s.setLatch (.await x))

/-- Fx15 (R154). -/
def execLdDTVx (x : Reg) (s : State) : Result :=
  .next (s.setDT (s.reg x)).advance

/-- Fx18 (R155): the write itself emits no beep. -/
def execLdSTVx (x : Reg) (s : State) : Result :=
  .next (s.setST (s.reg x)).advance

end Sys2Proof.Machine
end

