-- ==== Sys2Proof/Machine/Events.lean ====
section
/-! DEFINITION. Which event the host sends next (60_exceptions.md R220), and the events other than Step (R222 to R228),
each on a state from which the event has already been taken. After HALTED or STOPPED every one of them does nothing (R215; log 25, 29). -/

namespace Sys2Proof.Machine

namespace State

/-- The event the host sends next: the first of the listed ones, and a free one when none is listed (R220; log 22). -/
def nextEvent (s : State) : HostEvent :=
  match s.pending with
  | [] => Config.hostEvent s.freeEvents
  | e :: _ => e

/-- The state once the next event has been taken off what is to come. -/
def takeEvent (s : State) : State :=
  match s.pending with
  | [] => s.setFreeEvents (s.freeEvents + 1)
  | _ :: rest => s.setPending rest

/-- A timer counts down by 1 and never goes below 0 (10_state.md R39, R40). -/
def countDown (t : Byte) : Byte := if t = 0 then 0 else t - 1

/-- The outputs after a tick: one Beep more exactly when ST is 1 (R222, R223; log 23). -/
def traceAfterTick (s : State) : List Output := if s.ST = 1 then s.trace ++ [.beep] else s.trace

/-- Tick (R222). -/
def tick (s : State) : State :=
  match s.status with
  | .running => ((s.setTrace s.traceAfterTick).setDT (countDown s.DT)).setST (countDown s.ST)
  | _ => s

/-- resolve(x, k) (R226): V[x] <- k, latch <- NONE, pc <- pc + 2. -/
def resolveWait (s : State) (x : Reg) (k : Key) : State :=
  ((s.setReg x (BitVec.ofNat 8 k.val)).setLatch .none).advance

/-- KeyDown(k) (R224): the key is marked pressed and a pending wait is resolved (log 21). -/
def keyDown (s : State) (k : Key) : State :=
  match s.status with
  | .running =>
    match s.latch with
    | .none => s.setKey k true
    | .await x => (s.setKey k true).resolveWait x k
  | _ => s

/-- KeyUp(k) (R225): a release never resolves a wait (log 21). -/
def keyUp (s : State) (k : Key) : State :=
  match s.status with
  | .running => s.setKey k false
  | _ => s

/-- RenderAck (R227; log 29). -/
def renderAck (s : State) : State :=
  match s.status with
  | .running => s.setDirty false
  | _ => s

/-- Stop (R228; log 29). -/
def stop (s : State) : State :=
  match s.status with
  | .running => s.setStatus .stopped
  | _ => s

end State

end Sys2Proof.Machine
end

