-- ==== Sys2Proof/Machine/Fetch.lean ====
section
/-! DEFINITION. What a Step event finds to do before it executes (60_exceptions.md R221, in the order of R212), and the
placing of a word where the next step fetches. -/

namespace Sys2Proof.Machine

/-- What a Step event does. -/
inductive Fetched where
  /-- nothing: the run has ended, or a key wait is pending -/
  | idle
  /-- the fetch is out of range (R204) -/
  | outOfRange
  /-- the fetched word is no instruction (R205) -/
  | unknown (op : Word)
  /-- execute an instruction -/
  | run (i : Instr)
  deriving DecidableEq, Repr

/-- Whether the word at pc lies in memory: not when pc + 1 > 0xFFF (R204; log 18, 19). -/
def fetchInRange (pc : Word) : Bool := decide (pc.toNat + 1 ≤ 0xFFF)

/-- The word at pc, decoded. -/
def State.fetchInstr (s : State) : Fetched :=
  match decodeWord s.fetchWord with
  | .ok i => .run i
  | .error _ => .unknown s.fetchWord

/-- The checks of R221 in order: status, latch, fetch range, opcode (R212). -/
def State.fetch (s : State) : Fetched :=
  match s.status with
  | .running =>
    match s.latch with
    | .none => if fetchInRange s.pc then s.fetchInstr else .outOfRange
    | .await _ => .idle
  | _ => .idle

/-- A word stored at pc, its high byte first (20_memory.md R53). -/
def State.placeWord (s : State) (w : Word) : State :=
  s.setMem (s.mem.writeBytes s.pc.toNat [highByte w, lowByte w])

/-- The state made ready to fetch: running, no key wait, a Step as the one listed event, pc where a word can be
fetched. -/
def State.readyToFetch (s : State) : State :=
  (((s.setStatus .running).setLatch .none).setPending [.step]).setPc
    (if fetchInRange s.pc then s.pc else 0x200)

end Sys2Proof.Machine
end

