-- ==== Sys2Proof/Machine/Step.lean ====
section
/-! DEFINITION. One event of the host, whichever it sends next (60_exceptions.md R220 to R228; log 22). -/

namespace Sys2Proof.Machine

/-- The Step event (R221). -/
def State.stepEvent (s : State) : Host.Outcome State Fault Refusal :=
  match s.fetch with
  | .idle => .next s
  | .outOfRange => .next (s.fatal .fetchRange none)
  | .unknown op => .next (s.fatal .unknownOpcode (some op))
  | .run i => exec i s

/-- One event, already taken off what is to come. -/
def State.deliver (s : State) (e : HostEvent) : Host.Outcome State Fault Refusal :=
  match e with
  | .step => s.stepEvent
  | .tick => .next s.tick
  | .keyDown k => .next (s.keyDown k)
  | .keyUp k => .next (s.keyUp k)
  | .renderAck => .next s.renderAck
  | .stop => .next s.stop

/-- One step of the machine: the host's next event. -/
def step (s : State) : Host.Outcome State Fault Refusal :=
  s.takeEvent.deliver s.nextEvent

/-- The state with a table word placed where the next step fetches it, and ready to fetch it (log 34). -/
def State.withFetchWord (s : State) (nbits w : Nat) : State :=
  s.readyToFetch.placeWord (tableWord nbits w)

end Sys2Proof.Machine
end

