-- ==== Sys2Proof/Machine/Boot.lean ====
section
/-! DEFINITION. Construction from a ROM image, the CORE's only reset (70_reset_and_hazards.md R250 to R257). -/

namespace Sys2Proof.Machine

/-- The free byte that memory address `a` draws when ZERO_INIT is false; draws 0 to 19 go to the registers and timers
(log 7). -/
def bootDraw (a : Nat) : Byte := Config.draw8 (20 + a)

/-- Memory after construction, byte by byte (R251). -/
def bootByte (cfg : Config) (rom : List Byte) (a : Nat) : Byte :=
  if h : a < 80 then cfg.font[a]
  else if progStart ≤ a ∧ a < progStart + rom.length then rom.getD (a - progStart) 0
  else if cfg.zeroInit then 0
  else bootDraw a

/-- Memory after construction in canonical form: the addresses whose byte differs from the unlisted value. -/
def bootMemory (cfg : Config) (rom : List Byte) : Memory :=
  (List.range memSize).filterMap fun a =>
    if bootByte cfg rom a = Memory.unlisted a then none else some (a, bootByte cfg rom a)

/-- A register or timer after construction: 0, or its free byte (R253). -/
def bootCell (cfg : Config) (k : Nat) : Byte := if cfg.zeroInit then 0 else Config.draw8 k

/-- I after construction: 0, or a free value in 0x000..0xFFF (R253). -/
def bootIndex (cfg : Config) : Word :=
  if cfg.zeroInit then 0
  else BitVec.ofNat 16 ((Config.draw8 16 ++ Config.draw8 17 : BitVec 16).toNat % 0x1000)

/-- How many draws construction makes. -/
def bootDraws (cfg : Config) : Nat := if cfg.zeroInit then 0 else 20 + memSize

/-- The machine right after construction (R251 to R254, R257). -/
def constructed (cfg : Config) (rom : List Byte) : State :=
  { V := Vector.ofFn fun i => bootCell cfg i.val
    I := bootIndex cfg
    pc := BitVec.ofNat 16 progStart
    stack := []
    mem := bootMemory cfg rom
    fb := Framebuffer.blank
    dirty := false
    key := Vector.replicate 16 false
    latch := .none
    DT := bootCell cfg 18
    ST := bootCell cfg 19
    status := .running
    cfg := cfg
    pending := []
    freeEvents := 0
    trace := []
    draws := bootDraws cfg }

/-- Construction from a ROM image: refused when the image is longer than ROM_MAX (60_exceptions.md R210; log 28). -/
def construct (cfg : Config) (rom : List Byte) : Result :=
  if romMax < rom.length then .fault .romTooLarge else .next (constructed cfg rom)

end Sys2Proof.Machine
end

