-- ==== Sys2Proof/Safety.lean ====
section
/-! DEFINITION. What a sound state is, and the words in which the statements say what an event leaves unchanged. -/

namespace Sys2Proof.Machine

namespace State

/-- The invariant of the CORE, for the states that a run can reach from construction:
memory is in canonical form; I never passes 0xFFF (10_state.md R25); pc never passes 0x10FE (R29); the stack holds at
most STACK_DEPTH entries (R33), each the address of a 2nnn that was fetched, so at most 0xFFE; while a key wait is
pending, pc is the address of the Fx0A that was fetched, so at most 0xFFE (43_keys_timers.md R153). -/
abbrev Inv (s : State) : Prop :=
  s.mem.wf = true ∧ s.I.toNat ≤ 0xFFF ∧ s.pc.toNat ≤ 0x10FE ∧ s.stack.length ≤ s.cfg.stackDepth ∧
    (∀ a ∈ s.stack, a.toNat ≤ 0xFFE) ∧ (s.latch ≠ .none → s.pc.toNat ≤ 0xFFE)

/-- No byte of memory differs, whatever address is read. -/
abbrev SameMemory (s t : State) : Prop := ∀ a, t.mem.read a = s.mem.read a

/-- Every general register outside the list is unchanged. -/
abbrev SameRegsBut (s t : State) (w : List Reg) : Prop := ∀ r, r ∉ w → t.reg r = s.reg r

end State

/-- The parts of the state that a statement can name as changed. General registers are named by `SameRegsBut`. -/
inductive Part where
  | I | pc | stack | mem | fb | dirty | key | latch | DT | ST | status | trace | draws
  deriving DecidableEq, Repr

/-- Every part not in the list is unchanged, memory read byte by byte; the configuration and the host's coming events
are unchanged in any case. -/
abbrev State.SameBut (s t : State) (w : List Part) : Prop :=
  (.I ∉ w → t.I = s.I) ∧ (.pc ∉ w → t.pc = s.pc) ∧ (.stack ∉ w → t.stack = s.stack) ∧
    (.mem ∉ w → s.SameMemory t) ∧ (.fb ∉ w → t.fb = s.fb) ∧ (.dirty ∉ w → t.dirty = s.dirty) ∧
    (.key ∉ w → t.key = s.key) ∧ (.latch ∉ w → t.latch = s.latch) ∧ (.DT ∉ w → t.DT = s.DT) ∧
    (.ST ∉ w → t.ST = s.ST) ∧ (.status ∉ w → t.status = s.status) ∧ (.trace ∉ w → t.trace = s.trace) ∧
    (.draws ∉ w → t.draws = s.draws) ∧ t.cfg = s.cfg ∧ t.pending = s.pending ∧
    t.freeEvents = s.freeEvents

/-- The k-th coming event of a state, counted from 0: listed, or free after the listed ones (log 22). -/
abbrev State.eventAt (s : State) (k : Nat) : HostEvent :=
  s.pending.getD k (Config.hostEvent (s.freeEvents + (k - s.pending.length)))

/-- The pixel at column `c`, row `r` lies under a bit of 1 of the `n`-row sprite at I, drawn at (Vx, Vy): sprite row `j`
is the byte at I + j, its column `k` is bit `7 - k` (40_display.md R102), and coordinates wrap (R103). -/
def State.UnderSprite (s : State) (x y : Reg) (n : Fin 16) (c : Fin 64) (r : Fin 32) : Prop :=
  ∃ j k : Nat, j < n.val ∧ k < 8 ∧ (s.mem.read (s.I.toNat + j)).getLsbD (7 - k) = true ∧
    ((s.reg x).toNat + k) % 64 = c.val ∧ ((s.reg y).toNat + j) % 32 = r.val

end Sys2Proof.Machine
end

