-- ==== Sys2Proof/Certificates/Slice0/Obligations.lean ====
section
/-! DEFINITION. The statements for the provers, from the numbered rules of spec/. Conventions: `x`, `y` are register
indexes, so `15` is VF; `s.SameRegsBut t w` says that no register outside `w` changed and `s.SameBut t w` that no part
of the state outside `w` changed (memory read byte by byte; the configuration and the host's coming events never). A
statement speaks of every state, hence of every value of the parameters in `s.cfg`. `s.nextEvent` is the event the host
sends next, whichever it is, and `s.takeEvent` the state with that event taken off what is to come (log 22). -/

open Sys2Proof Sys2Proof.Machine

/-! ### Encoding (30_encoding.md) -/

/-- R72 to R75: decoding the word of any instruction gives the instruction back, and so does decoding its two bytes at
the head of any list. -/
def Obligations.DecodeOfEncodeIsIdentity : Prop :=
  ∀ (i : Instr) (rest : List Byte),
    decodeWord (encode i) = .ok i ∧ decode (encodeBytes i ++ rest) = .ok (i, rest)

/-- R75: a word that decodes is the word of the instruction it decodes to, so no two words mean the same and the
diagnostic of a fatal instruction holds the word that was fetched. -/
def Obligations.EncodeOfDecodeIsIdentity : Prop :=
  ∀ (op : Word) (i : Instr), decodeWord op = .ok i → encode i = op

/-- R75, R76: a word that a row of the opcode map accepts decodes to an instruction of that row, and a word that no
row accepts is an unknown opcode. That the map is exactly these rows rests on the spec's decisions D17, D18 and D19
(log 14, 15, 9). -/
def Obligations.DecoderFollowsOpcodeMap : Prop :=
  ∀ op : Word,
    (∀ row ∈ opcodeMap, row.accepts op = true → ∃ i, decodeWord op = .ok i ∧ i.mnemonic = row.mnemonic) ∧
    ((∀ row ∈ opcodeMap, row.accepts op = false) → decodeWord op = .error (.unknownOpcode op))

/-- R72, R73: the operands of a decoded instruction are the fields of its word, extracted as the source extracts them:
no field is moved, scaled or sign-extended. -/
def Obligations.OperandsAreTheFieldsOfTheWord : Prop :=
  ∀ (op : Word) (i : Instr), decodeWord op = .ok i →
    (∀ nnn, (i = .jp nnn ∨ i = .call nnn ∨ i = .ldI nnn ∨ i = .jpV0 nnn) → nnn.toNat = (op &&& 0x0FFF#16).toNat) ∧
    (∀ x nn, (i = .seImm x nn ∨ i = .sneImm x nn ∨ i = .ldImm x nn ∨ i = .addImm x nn ∨ i = .rnd x nn) →
      x.val = ((op &&& 0x0F00#16) >>> 8).toNat ∧ nn.toNat = (op &&& 0x00FF#16).toNat) ∧
    (∀ x y, (i = .seReg x y ∨ i = .sneReg x y ∨ i = .ldReg x y ∨ i = .orReg x y ∨ i = .andReg x y ∨ i = .xorReg x y ∨
        i = .addReg x y ∨ i = .subReg x y ∨ i = .shr x y ∨ i = .subnReg x y ∨ i = .shl x y) →
      x.val = ((op &&& 0x0F00#16) >>> 8).toNat ∧ y.val = ((op &&& 0x00F0#16) >>> 4).toNat) ∧
    (∀ x y n, i = .drw x y n → x.val = ((op &&& 0x0F00#16) >>> 8).toNat ∧ y.val = ((op &&& 0x00F0#16) >>> 4).toNat ∧
      n.val = (op &&& 0x000F#16).toNat) ∧
    (∀ x, (i = .skp x ∨ i = .sknp x ∨ i = .ldVxDT x ∨ i = .ldVxK x ∨ i = .ldDTVx x ∨ i = .ldSTVx x ∨ i = .addI x ∨
        i = .ldF x ∨ i = .ldB x ∨ i = .storeRegs x ∨ i = .loadRegs x) →
      x.val = ((op &&& 0x0F00#16) >>> 8).toNat)

/-- R72, R75: words written out from the opcode map decode to what they stand for, one or more of every family.
That 0x5121 and 0x0000 are no instructions is the spec's decision D17 (log 14). -/
def Obligations.SampleWordsDecode : Prop :=
  decodeWord 0x00E0#16 = .ok .cls ∧ decodeWord 0xD125#16 = .ok (.drw 1 2 5) ∧
  decodeWord 0x2ABC#16 = .ok (.call 0xABC) ∧ decodeWord 0x5120#16 = .ok (.seReg 1 2) ∧
  decodeWord 0x6A0F#16 = .ok (.ldImm 10 0x0F) ∧ decodeWord 0x8AB6#16 = .ok (.shr 10 11) ∧
  decodeWord 0xE4A1#16 = .ok (.sknp 4) ∧ decodeWord 0xF50A#16 = .ok (.ldVxK 5) ∧
  decodeWord 0xA123#16 = .ok (.ldI 0x123) ∧ decodeWord 0xFE65#16 = .ok (.loadRegs 14) ∧
  decodeWord 0x5121#16 = .error (.unknownOpcode 0x5121) ∧ decodeWord 0x0000#16 = .error (.unknownOpcode 0x0000)

/-! ### The step (60_exceptions.md) -/

/-- R220, R221: a step delivers the event the host sends next: the first of the listed ones, which leaves the list, or
the next free one, which is counted. Any event can be the next one. How the events are held is the model's (log 22). -/
def Obligations.StepDeliversTheNextEvent : Prop :=
  ∀ s : State,
    (∀ e rest, s.pending = e :: rest → s.nextEvent = e ∧ s.takeEvent = s.setPending rest) ∧
    (s.pending = [] → s.nextEvent = Config.hostEvent s.freeEvents ∧ s.takeEvent = s.setFreeEvents (s.freeEvents + 1)) ∧
    (∀ e, (s.setPending (e :: s.pending)).nextEvent = e ∧ (s.setPending (e :: s.pending)).takeEvent = s) ∧
    step s = s.takeEvent.deliver s.nextEvent

/-- R220: in a run of any length the host's events come one at a time in the host's order, none lost and none added:
after k steps the next events are those that stood k places further on, listed or free. The free events go on for ever
and nothing constrains them, so every endless interleaving is admitted. That it is is the spec's decision D27, how the
events are held is the model's (log 22). -/
def Obligations.EventsComeInTheHostsOrder : Prop :=
  ∀ (k : Nat) (s : State), ∃ t : State, Host.Core.run Sys2Proof.core k s = .next t ∧
    t.pending = s.pending.drop k ∧ t.freeEvents = s.freeEvents + (k - s.pending.length) ∧
    (∀ j, t.eventAt j = s.eventAt (k + j))

/-- R220, R214: as long as the host sends no Step, however long that is, no instruction executes and nothing halts. So
that a program ends rests on a fairness assumption about the host, as the spec's decision D27 says (log 22). -/
def Obligations.WithoutStepsNothingExecutes : Prop :=
  ∀ (k : Nat) (s : State), s.latch = .none → (∀ j, j < k → s.eventAt j ≠ .step) →
    ∃ t : State, Host.Core.run Sys2Proof.core k s = .next t ∧
      s.SameRegsBut t [] ∧ s.SameMemory t ∧ t.I = s.I ∧ t.pc = s.pc ∧ t.stack = s.stack ∧ t.fb = s.fb ∧
      t.draws = s.draws ∧ t.latch = .none ∧ (∀ d, t.status = .halted d → s.status = .halted d)

/-- R53, R221: when the event is a Step and the two bytes at pc, the first the more significant, decode to `i`, a step
is the execution of `i` on the state with that event taken off, and nothing else is added. How the events are held is
the model's (log 22). -/
def Obligations.StepRunsDecodedInstruction : Prop :=
  ∀ (s : State) (i : Instr), s.nextEvent = .step → s.status = .running → s.latch = .none → s.pc.toNat ≤ 0xFFE →
    decode [s.mem.read s.pc.toNat, s.mem.read (s.pc.toNat + 1)] = .ok (i, []) →
    step s = exec i s.takeEvent

/-- R221: the Step event, check by check, and what a fatal condition raised by the instruction's own rule leaves. The
form of the halt is the spec's decisions D2, D3 and D4 (log 25, 26), the order of the checks is D5, how the events are
held is the model's (log 22). -/
def Obligations.StepEventFollowsItsRule : Prop :=
  ∀ s : State, s.nextEvent = .step →
    (s.status ≠ .running → step s = .next s.takeEvent) ∧
    (s.status = .running → s.latch ≠ .none → step s = .next s.takeEvent) ∧
    (s.status = .running → s.latch = .none → 0xFFF < s.pc.toNat + 1 →
      step s = .next (s.takeEvent.setStatus (.halted ⟨.fetchRange, s.pc, none⟩))) ∧
    (s.status = .running → s.latch = .none → s.pc.toNat + 1 ≤ 0xFFF →
      ∀ op : Word, op.toNat = (s.mem.read s.pc.toNat).toNat * 256 + (s.mem.read (s.pc.toNat + 1)).toNat →
        ((∀ row ∈ opcodeMap, row.accepts op = false) →
          step s = .next (s.takeEvent.setStatus (.halted ⟨.unknownOpcode, s.pc, some op⟩))) ∧
        (∀ row ∈ opcodeMap, row.accepts op = true → ∃ i, decodeWord op = .ok i ∧ i.mnemonic = row.mnemonic ∧
          step s = exec i s.takeEvent ∧
          (∀ t d, exec i s.takeEvent = .next t → t.status = .halted d →
            d.pc = s.pc ∧ d.opcode = some op ∧ t = s.takeEvent.setStatus (.halted d))))

/-- The invariant of every run: memory stays in canonical form (log 31), I never passes 0xFFF (R25), pc never passes
0x10FE (R29), the stack never passes STACK_DEPTH (R33), return addresses are addresses that were fetched from, and so
is pc during a key wait. The stack bound is the spec's decision D6 (log 2), the pc bound rests on D23 (log 19). -/
def Obligations.EveryStepKeepsTheStateSound : Prop :=
  ∀ s t : State, s.Inv → step s = .next t → t.Inv

/-- The state after reset meets the invariant. Its values are those of log 3 to 6. -/
def Obligations.ResetStateIsSound : Prop := State.reset.Inv

/-- R251 to R254: every constructed machine meets the invariant, for every configuration and ROM image. -/
def Obligations.ConstructedStateIsSound : Prop :=
  ∀ (cfg : Config) (rom : List Byte) (s : State), construct cfg rom = .next s → s.Inv

/-- R200, R220: every event of every state has a next state: a fatal condition is the status HALTED, so no step ends
in a fault or a refusal. That a fatal condition is a state is the spec's decision D2 (log 25). -/
def Obligations.EveryStepAnswersNextState : Prop :=
  ∀ s : State, ∃ t, step s = .next t

/-- R200, R201, R43: whatever event halts the machine, it is a Step; only status changes, and the diagnostic holds the
pc of the failing instruction and the word it fetched, or no word when the fetch failed. Rests on the spec's decisions
D2, D3 and D4 (log 25, 26). -/
def Obligations.FatalStepChangesOnlyStatus : Prop :=
  ∀ (s t : State) (d : Diag), s.status = .running → step s = .next t → t.status = .halted d →
    s.nextEvent = .step ∧ t = s.takeEvent.setStatus (.halted d) ∧ d.pc = s.pc ∧
    ((d.reason = .fetchRange ∧ d.opcode = none ∧ 0xFFE < s.pc.toNat) ∨
      (d.reason ≠ .fetchRange ∧ d.opcode = some s.fetchWord ∧ s.pc.toNat ≤ 0xFFE))

/-- R215: after HALTED or STOPPED no number of events changes any state of the CORE or emits a beep. Rests on the
spec's decisions D2 and D33 (log 25, 29). -/
def Obligations.EndedRunsNeverChange : Prop :=
  ∀ (k : Nat) (s : State), s.status ≠ .running →
    ∃ t : State, Host.Core.run Sys2Proof.core k s = .next t ∧
      t.toCoreState = s.toCoreState ∧ t.trace = s.trace ∧ t.draws = s.draws ∧ t.cfg = s.cfg

/-- R38, R153: the latch is set only by Fx0A, in a Step, with pc left at it. -/
def Obligations.KeyWaitStartsOnlyAtFx0A : Prop :=
  ∀ (s t : State) (x : Reg), s.latch = .none → step s = .next t → t.latch = .await x →
    s.nextEvent = .step ∧ s.fetchWord = 0xF00A#16 ||| ((BitVec.ofNat 16 x.val) <<< 8) ∧ t.pc = s.pc

/-- R38, R226, R232: a key wait ends only at a key press, which writes the key's code into the waiting register and
moves pc past the Fx0A. That a release or a held key does not end it is the spec's decision D25 (log 21). -/
def Obligations.KeyWaitEndsOnlyAtKeyPress : Prop :=
  ∀ (s t : State) (x : Reg), s.latch = .await x → step s = .next t → t.latch ≠ .await x →
    ∃ k : Key, s.nextEvent = .keyDown k ∧ t.latch = .none ∧ (t.reg x).toNat = k.val ∧ t.pc = s.pc + 2

/-- R24, R32, R35, R36 to R40, R51: which instructions write I, the stack, memory, the framebuffer and its dirty flag,
the latch, the timers; no instruction writes the keys, the output, the configuration or the host's
events. The dirty
mark of 00E0 is the spec's decision D24 (log 20), Fx33 is D19 (log 9), and that Fx55 and Fx65 leave I is D16 (log
13). -/
def Obligations.InstructionsWriteOnlyTheirState : Prop :=
  ∀ (i : Instr) (s t : State), exec i s = .next t →
    (t.I ≠ s.I → (∃ nnn, i = .ldI nnn) ∨ ∃ x, i = .addI x ∨ i = .ldF x) ∧
    (t.stack ≠ s.stack → i = .ret ∨ ∃ nnn, i = .call nnn) ∧
    ((∃ a, t.mem.read a ≠ s.mem.read a) → ∃ x, i = .ldB x ∨ i = .storeRegs x) ∧
    (t.fb ≠ s.fb ∨ t.dirty ≠ s.dirty → i = .cls ∨ ∃ x y n, i = .drw x y n) ∧
    (t.latch ≠ s.latch → ∃ x, i = .ldVxK x) ∧
    (t.DT ≠ s.DT → ∃ x, i = .ldDTVx x) ∧
    (t.ST ≠ s.ST → ∃ x, i = .ldSTVx x) ∧
    (t.draws ≠ s.draws → ∃ x nn, i = .rnd x nn) ∧
    t.key = s.key ∧ t.trace = s.trace ∧ t.cfg = s.cfg ∧ t.pending = s.pending ∧ t.freeEvents = s.freeEvents

/-- R23: VF changes only by the seven instructions that write it as a flag or by one that names it as its destination.
That OR, AND and XOR are not among the seven is the spec's decision D15 (log 12). -/
def Obligations.FlagRegisterHasOnlyItsWriters : Prop :=
  ∀ (i : Instr) (s t : State), exec i s = .next t → t.reg 15 ≠ s.reg 15 →
    (∃ x y, i = .addReg x y ∨ i = .subReg x y ∨ i = .shr x y ∨ i = .subnReg x y ∨ i = .shl x y) ∨
    (∃ x y n, i = .drw x y n) ∨ (∃ x, i = .addI x) ∨
    (∃ nn, i = .ldImm 15 nn ∨ i = .addImm 15 nn ∨ i = .rnd 15 nn) ∨
    (∃ y, i = .ldReg 15 y ∨ i = .orReg 15 y ∨ i = .andReg 15 y ∨ i = .xorReg 15 y) ∨
    i = .ldVxDT 15 ∨ i = .loadRegs 15

/-- R61, R214: an event other than Step leaves memory, I, the stack, the framebuffer and the draws alone, and changes
a register or pc only as the key press that ends a wait. Rests on the spec's decision D37 (log 32) and on how the
model holds the events (log 22). -/
def Obligations.HostEventsLeaveProgramStateAlone : Prop :=
  ∀ s t : State, s.nextEvent ≠ .step → step s = .next t →
    s.SameMemory t ∧ t.I = s.I ∧ t.stack = s.stack ∧ t.fb = s.fb ∧ t.draws = s.draws ∧ t.cfg = s.cfg ∧
    t.pending = s.takeEvent.pending ∧ t.freeEvents = s.takeEvent.freeEvents ∧
    (t.pc ≠ s.pc ∨ (∃ r, t.reg r ≠ s.reg r) → ∃ k x, s.nextEvent = .keyDown k ∧
      s.latch = .await x ∧ ∀ r, r ≠ x → t.reg r = s.reg r)

/-- R36, D29: no event reads the dirty flag: a run from a state with another dirty flag differs in that flag alone
(log 29). -/
def Obligations.DirtyFlagIsNeverRead : Prop :=
  ∀ (s t : State) (b : Bool), step s = .next t →
    ∃ u, step (s.setDirty b) = .next u ∧ u.setDirty t.dirty = t ∧ (u.dirty = t.dirty ∨ (u.dirty = b ∧ t.dirty = s.dirty))

/-- R35: only 00E0 and Dxyn write the framebuffer, and only Dxyn reads it: every other instruction does the same
whatever it holds, 00E0 leaving it all 0. -/
def Obligations.FramebufferIsReadOnlyByDraw : Prop :=
  ∀ (i : Instr) (s t : State) (f : Framebuffer), exec i s = .next t → (∀ x y n, i ≠ .drw x y n) →
    (i ≠ .cls → t.fb = s.fb ∧ exec i (s.setFb f) = .next (t.setFb f)) ∧
    (i = .cls → (∀ c r, t.pixel c r = false) ∧ exec i (s.setFb f) = .next t)

/-! ### Display (40_display.md) -/

/-- R100: every pixel 0, dirty set. The dirty mark is the spec's decision D24 (log 20). -/
def Obligations.ClearScreenBlanksFramebuffer : Prop :=
  ∀ s : State, ∃ t, exec .cls s = .next t ∧
    (∀ c r, t.pixel c r = false) ∧ t.dirty = true ∧ t.pc = s.pc + 2 ∧
    s.SameRegsBut t [] ∧ s.SameBut t [.fb, .dirty, .pc]

/-- R101 to R106: the pixels under a sprite bit of 1 are inverted and no other changes; VF is 1 exactly when a pixel
went from 1 to 0; dirty is set; with n = 0 no address is checked. The bit order is the spec's decision D11, the read
of the coordinates before VF is D14 and the case n = 0 is D34 (log 30, 11). -/
def Obligations.DrawInvertsPixelsUnderSprite : Prop :=
  ∀ (x y : Reg) (n : Fin 16) (s : State), (∀ j, j < n.val → s.I.toNat + j ≤ 0xFFF) →
    ∃ t, exec (.drw x y n) s = .next t ∧
      (∀ c r, s.UnderSprite x y n c r → t.pixel c r = !s.pixel c r) ∧
      (∀ c r, ¬ s.UnderSprite x y n c r → t.pixel c r = s.pixel c r) ∧
      ((∃ c r, s.pixel c r = true ∧ t.pixel c r = false) → t.reg 15 = 1) ∧
      ((∀ c r, s.pixel c r = true → t.pixel c r = true) → t.reg 15 = 0) ∧
      t.dirty = true ∧ t.pc = s.pc + 2 ∧ s.SameRegsBut t [15] ∧ s.SameBut t [.fb, .dirty, .pc]

/-- R106, C4: the same sprite drawn twice at one place, neither coordinate in VF, restores the framebuffer, and the
second VF is 1 exactly when the first draw turned a pixel from 0 to 1. The spec derives it. -/
def Obligations.DrawingTwiceRestoresFramebuffer : Prop :=
  ∀ (x y : Reg) (n : Fin 16) (s : State), x ≠ 15 → y ≠ 15 → (∀ j, j < n.val → s.I.toNat + j ≤ 0xFFF) →
    ∃ t u, exec (.drw x y n) s = .next t ∧ exec (.drw x y n) t = .next u ∧ u.fb = s.fb ∧
      ((∃ c r, s.pixel c r = false ∧ t.pixel c r = true) → u.reg 15 = 1) ∧
      ((∀ c r, s.pixel c r = false → t.pixel c r = false) → u.reg 15 = 0)

/-- R163: an access based at I that would pass 0xFFF halts with MEM_RANGE and changes only status, whichever of its
addresses is out of range; and no instruction that uses I as a base changes I. The form of the halt is the spec's
decisions D2, D3 and D4 (log 25, 26); Fx33 is D19 (log 9); that Fx55 and Fx65 leave I is D16 (log 13). -/
def Obligations.OutOfRangeAccessHaltsAndWritesNothing : Prop :=
  ∀ (s : State) (i : Instr) (len : Nat),
    ((∃ x y n, i = .drw x y n ∧ len = n.val) ∨ (∃ x, i = .ldB x ∧ s.cfg.hasFx33 = true ∧ len = 3) ∨
      (∃ x, i = .storeRegs x ∧ len = x.val + 1) ∨ (∃ x, i = .loadRegs x ∧ len = x.val + 1)) →
    ((∃ k, k < len ∧ 0xFFF < s.I.toNat + k) →
      exec i s = .next (s.setStatus (.halted ⟨.memRange, s.pc, some (encode i)⟩))) ∧
    (∀ t, exec i s = .next t → t.I = s.I)

/-! ### Control flow (41_control_flow.md) -/

/-- R110: 00EE pops the address of a call and goes on 2 bytes after it; with an empty stack it halts. The form of the
halt is the spec's decisions D2, D3 and D4 (log 25, 26). -/
def Obligations.ReturnContinuesAfterTheCall : Prop :=
  ∀ s : State,
    (∀ a rest, s.stack = a :: rest → ∃ t, exec .ret s = .next t ∧
      t.stack = rest ∧ t.pc = a + 2 ∧ s.SameRegsBut t [] ∧ s.SameBut t [.stack, .pc]) ∧
    (s.stack = [] → exec .ret s = .next (s.setStatus (.halted ⟨.stackUnderflow, s.pc, some 0x00EE⟩)))

/-- R111: 1nnn sets pc to nnn and nothing else; nnn = 0xFFF makes the next fetch halt. That halt is the spec's
decisions D2, D4 and D23 (log 25, 19). -/
def Obligations.JumpSetsPc : Prop :=
  ∀ (nnn : Addr12) (s : State), ∃ t, exec (.jp nnn) s = .next t ∧
    t.pc.toNat = nnn.toNat ∧ s.SameRegsBut t [] ∧ s.SameBut t [.pc] ∧
    (nnn = 0xFFF → t.status = .running → t.latch = .none → t.nextEvent = .step →
      step t = .next (t.takeEvent.setStatus (.halted ⟨.fetchRange, 0xFFF, none⟩)))

/-- R112, R207: 2nnn pushes its own address and jumps; with a full stack it halts and pushes nothing. The bound is the
parameter STACK_DEPTH, the spec's decision D6 (log 2). The form of the halt is the spec's decisions D2, D3 and D4
(log 25, 26). -/
def Obligations.CallPushesItsAddress : Prop :=
  ∀ (nnn : Addr12) (s : State),
    (s.stack.length < s.cfg.stackDepth → ∃ t, exec (.call nnn) s = .next t ∧
      t.stack = s.pc :: s.stack ∧ t.pc.toNat = nnn.toNat ∧ s.SameRegsBut t [] ∧ s.SameBut t [.stack, .pc]) ∧
    (s.stack.length = s.cfg.stackDepth →
      exec (.call nnn) s =
        .next (s.setStatus (.halted ⟨.stackOverflow, s.pc, some (BitVec.ofNat 16 (0x2000 + nnn.toNat))⟩)))

/-- R118: a call, and then a return with the stack the call left, whatever else has happened between, goes on after
the call with the stack as it was before. The spec derives it. -/
def Obligations.CallThenReturnRoundTrip : Prop :=
  ∀ (nnn : Addr12) (s : State), s.stack.length < s.cfg.stackDepth →
    ∃ t, exec (.call nnn) s = .next t ∧
      ∀ u : State, u.stack = t.stack → ∃ v, exec .ret u = .next v ∧ v.pc = s.pc + 2 ∧ v.stack = s.stack

/-- R113 to R116: the four skips go on at pc + 4 when their condition holds and at pc + 2 when it does not, and change
nothing else. -/
def Obligations.SkipsFollowTheirCondition : Prop :=
  ∀ (x y : Reg) (nn : Byte) (s : State),
    (∃ t, exec (.seImm x nn) s = .next t ∧ t.pc = (if s.reg x = nn then s.pc + 4 else s.pc + 2) ∧
      s.SameRegsBut t [] ∧ s.SameBut t [.pc]) ∧
    (∃ t, exec (.sneImm x nn) s = .next t ∧ t.pc = (if s.reg x ≠ nn then s.pc + 4 else s.pc + 2) ∧
      s.SameRegsBut t [] ∧ s.SameBut t [.pc]) ∧
    (∃ t, exec (.seReg x y) s = .next t ∧ t.pc = (if s.reg x = s.reg y then s.pc + 4 else s.pc + 2) ∧
      s.SameRegsBut t [] ∧ s.SameBut t [.pc]) ∧
    (∃ t, exec (.sneReg x y) s = .next t ∧ t.pc = (if s.reg x ≠ s.reg y then s.pc + 4 else s.pc + 2) ∧
      s.SameRegsBut t [] ∧ s.SameBut t [.pc])

/-- R117: Bnnn jumps to V0 + nnn without any modulo, and a sum above 0xFFE makes the next fetch halt (the spec's
decision D23) (log 19). The form of the halt is the spec's decisions D2, D3 and D4 (log 25, 26). -/
def Obligations.ComputedJumpAddsV0 : Prop :=
  ∀ (nnn : Addr12) (s : State), ∃ t, exec (.jpV0 nnn) s = .next t ∧
    t.pc.toNat = (s.reg 0).toNat + nnn.toNat ∧ s.SameRegsBut t [] ∧ s.SameBut t [.pc] ∧
    (0xFFE < (s.reg 0).toNat + nnn.toNat → t.status = .running → t.latch = .none → t.nextEvent = .step →
      step t = .next (t.takeEvent.setStatus (.halted ⟨.fetchRange, t.pc, none⟩)))

/-! ### Registers and arithmetic (42_alu.md) -/

/-- R131: 6xnn. -/
def Obligations.LoadImmediateSetsRegister : Prop :=
  ∀ (x : Reg) (nn : Byte) (s : State), ∃ t, exec (.ldImm x nn) s = .next t ∧
    t.reg x = nn ∧ t.pc = s.pc + 2 ∧ s.SameRegsBut t [x] ∧ s.SameBut t [.pc]

/-- R132: 7xnn adds modulo 256 and does not touch VF, unless VF is its destination. -/
def Obligations.AddImmediateLeavesFlag : Prop :=
  ∀ (x : Reg) (nn : Byte) (s : State), ∃ t, exec (.addImm x nn) s = .next t ∧
    (t.reg x).toNat = ((s.reg x).toNat + nn.toNat) % 256 ∧ t.pc = s.pc + 2 ∧
    s.SameRegsBut t [x] ∧ s.SameBut t [.pc]

/-- R133: 8xy0. -/
def Obligations.LoadRegisterCopies : Prop :=
  ∀ (x y : Reg) (s : State), ∃ t, exec (.ldReg x y) s = .next t ∧
    t.reg x = s.reg y ∧ t.pc = s.pc + 2 ∧ s.SameRegsBut t [x] ∧ s.SameBut t [.pc]

/-- R134, R135, R136: OR, AND and XOR, bit by bit, with every other register unchanged. That VF is unchanged is the
spec's decision D15 (log 12). -/
def Obligations.LogicOperationsAreBitwise : Prop :=
  ∀ (x y : Reg) (s : State),
    (∃ t, exec (.orReg x y) s = .next t ∧
      (∀ k, (t.reg x).getLsbD k = ((s.reg x).getLsbD k || (s.reg y).getLsbD k)) ∧
      t.pc = s.pc + 2 ∧ s.SameRegsBut t [x] ∧ s.SameBut t [.pc]) ∧
    (∃ t, exec (.andReg x y) s = .next t ∧
      (∀ k, (t.reg x).getLsbD k = ((s.reg x).getLsbD k && (s.reg y).getLsbD k)) ∧
      t.pc = s.pc + 2 ∧ s.SameRegsBut t [x] ∧ s.SameBut t [.pc]) ∧
    (∃ t, exec (.xorReg x y) s = .next t ∧
      (∀ k, (t.reg x).getLsbD k = ((s.reg x).getLsbD k != (s.reg y).getLsbD k)) ∧
      t.pc = s.pc + 2 ∧ s.SameRegsBut t [x] ∧ s.SameBut t [.pc])

/-- R137, R144: 8xy4 adds modulo 256 and VF is 1 exactly when the sum passes 255; with x = 15 VF holds the flag, which
is the spec's decision D14 (log 11). -/
def Obligations.AddRegistersSetsCarry : Prop :=
  ∀ (x y : Reg) (s : State), ∃ t, exec (.addReg x y) s = .next t ∧
    (x ≠ 15 → (t.reg x).toNat = ((s.reg x).toNat + (s.reg y).toNat) % 256) ∧
    (t.reg 15).toNat = (if (s.reg x).toNat + (s.reg y).toNat > 255 then 1 else 0) ∧
    t.pc = s.pc + 2 ∧ s.SameRegsBut t [x, 15] ∧ s.SameBut t [.pc]

/-- R138, R140, R144: 8xy5 is Vx - Vy and 8xy7 is Vy - Vx, modulo 256, and VF is 1 exactly when there is no borrow. The
polarity of VF is the spec's decision D12 (log 10), and x = 15 is D14 (log 11). -/
def Obligations.SubtractionsSetNoBorrow : Prop :=
  ∀ (x y : Reg) (s : State),
    (∃ t, exec (.subReg x y) s = .next t ∧
      (x ≠ 15 → (t.reg x).toNat = ((s.reg x).toNat + 256 - (s.reg y).toNat) % 256) ∧
      (t.reg 15).toNat = (if (s.reg x).toNat ≥ (s.reg y).toNat then 1 else 0) ∧
      t.pc = s.pc + 2 ∧ s.SameRegsBut t [x, 15] ∧ s.SameBut t [.pc]) ∧
    (∃ t, exec (.subnReg x y) s = .next t ∧
      (x ≠ 15 → (t.reg x).toNat = ((s.reg y).toNat + 256 - (s.reg x).toNat) % 256) ∧
      (t.reg 15).toNat = (if (s.reg y).toNat ≥ (s.reg x).toNat then 1 else 0) ∧
      t.pc = s.pc + 2 ∧ s.SameRegsBut t [x, 15] ∧ s.SameBut t [.pc])

/-- R139, R141, R144: the shifts by 1, for both values of SHIFT_FROM_VY; VF receives the bit shifted out. The operand is
the spec's decision D13 (log 8), and x = 15 is D14 (log 11). -/
def Obligations.ShiftsMoveOneBitIntoFlag : Prop :=
  ∀ (x y : Reg) (s : State) (a : Byte), a = (if s.cfg.shiftFromVy = true then s.reg y else s.reg x) →
    (∃ t, exec (.shr x y) s = .next t ∧
      (x ≠ 15 → (t.reg x).toNat = a.toNat / 2) ∧ (t.reg 15).toNat = a.toNat % 2 ∧
      t.pc = s.pc + 2 ∧ s.SameRegsBut t [x, 15] ∧ s.SameBut t [.pc]) ∧
    (∃ t, exec (.shl x y) s = .next t ∧
      (x ≠ 15 → (t.reg x).toNat = (2 * a.toNat) % 256) ∧ (t.reg 15).toNat = a.toNat / 128 ∧
      t.pc = s.pc + 2 ∧ s.SameRegsBut t [x, 15] ∧ s.SameBut t [.pc])

/-- R142, R143: Cxnn stores the next free byte masked by nn, so the bits outside nn are 0; the draw is used up. Nothing is
said of the free byte itself: it is the spec's decision D32 (log 24). -/
def Obligations.RandomByteIsMasked : Prop :=
  ∀ (x : Reg) (nn : Byte) (s : State), ∃ t, exec (.rnd x nn) s = .next t ∧
    t.reg x = Config.draw8 s.draws &&& nn ∧ (∀ k, nn.getLsbD k = false → (t.reg x).getLsbD k = false) ∧
    t.draws = s.draws + 1 ∧ t.pc = s.pc + 2 ∧ s.SameRegsBut t [x] ∧ s.SameBut t [.pc, .draws]

/-! ### Keys and timers (43_keys_timers.md) -/

/-- R150, R151, R156: the key skips look at the key whose code is in Vx, and a code above 0xF halts. That it halts is
the spec's decision D20 (log 16). The form of the halt is the spec's decisions D2, D3 and D4 (log 25, 26). -/
def Obligations.KeySkipsSampleTheKey : Prop :=
  ∀ (x : Reg) (s : State),
    (∀ k : Key, (s.reg x).toNat = k.val →
      (∃ t, exec (.skp x) s = .next t ∧ t.pc = (if s.key[k.val] = true then s.pc + 4 else s.pc + 2) ∧
        s.SameRegsBut t [] ∧ s.SameBut t [.pc]) ∧
      (∃ t, exec (.sknp x) s = .next t ∧ t.pc = (if s.key[k.val] = false then s.pc + 4 else s.pc + 2) ∧
        s.SameRegsBut t [] ∧ s.SameBut t [.pc])) ∧
    (0xF < (s.reg x).toNat →
      exec (.skp x) s = .next (s.setStatus (.halted ⟨.keyRange, s.pc, some (encode (.skp x))⟩)) ∧
      exec (.sknp x) s = .next (s.setStatus (.halted ⟨.keyRange, s.pc, some (encode (.sknp x))⟩)))

/-- R152, R154, R155: Fx07 reads DT, Fx15 writes DT, Fx18 writes ST and emits nothing. -/
def Obligations.TimerTransfers : Prop :=
  ∀ (x : Reg) (s : State),
    (∃ t, exec (.ldVxDT x) s = .next t ∧ t.reg x = s.DT ∧ t.pc = s.pc + 2 ∧
      s.SameRegsBut t [x] ∧ s.SameBut t [.pc]) ∧
    (∃ t, exec (.ldDTVx x) s = .next t ∧ t.DT = s.reg x ∧ t.pc = s.pc + 2 ∧
      s.SameRegsBut t [] ∧ s.SameBut t [.DT, .pc]) ∧
    (∃ t, exec (.ldSTVx x) s = .next t ∧ t.ST = s.reg x ∧ t.pc = s.pc + 2 ∧
      s.SameRegsBut t [] ∧ s.SameBut t [.ST, .pc])

/-- R153: Fx0A sets the latch and changes nothing else, pc included; a key already held does not end the wait (the spec's
decision D25, log 21). -/
def Obligations.WaitKeySetsLatchAndKeepsPc : Prop :=
  ∀ (x : Reg) (s : State), ∃ t, exec (.ldVxK x) s = .next t ∧ t.latch = .await x ∧
    s.SameRegsBut t [] ∧ s.SameBut t [.latch] ∧ (t.nextEvent = .step → step t = .next t.takeEvent)

/-! ### Address register and memory (44_index_memory.md) -/

/-- R160, R162: Annn loads I and Fx29 points it at Vx * 5 without masking Vx. Annn for every nnn is the spec's decision
D18 (log 15), and the missing mask is D21 (log 17). -/
def Obligations.IndexLoads : Prop :=
  ∀ (x : Reg) (nnn : Addr12) (s : State),
    (∃ t, exec (.ldI nnn) s = .next t ∧ t.I.toNat = nnn.toNat ∧ t.pc = s.pc + 2 ∧
      s.SameRegsBut t [] ∧ s.SameBut t [.I, .pc]) ∧
    (∃ t, exec (.ldF x) s = .next t ∧ t.I.toNat = (s.reg x).toNat * 5 ∧ t.pc = s.pc + 2 ∧
      s.SameRegsBut t [] ∧ s.SameBut t [.I, .pc])

/-- R161: Fx1E adds Vx to I modulo 0x1000, and VF says whether the sum passed 0xFFF. That x = 15 adds the old VF is
the spec's decision D14 (log 11). -/
def Obligations.AddToIndexWrapsAndFlags : Prop :=
  ∀ (x : Reg) (s : State), ∃ t, exec (.addI x) s = .next t ∧
    t.I.toNat = (s.I.toNat + (s.reg x).toNat) % 0x1000 ∧
    (t.reg 15).toNat = (if s.I.toNat + (s.reg x).toNat > 0xFFF then 1 else 0) ∧
    t.pc = s.pc + 2 ∧ s.SameRegsBut t [15] ∧ s.SameBut t [.I, .pc]

/-- R164: with HAS_FX33, Fx33 stores the three decimal digits of Vx at I, I + 1, I + 2; without it, it is an unknown
opcode. The instruction itself is the spec's decision D19 (log 9). The form of the halt is the spec's decisions D2,
D3 and D4 (log 25, 26). -/
def Obligations.DecimalStoreWritesThreeDigits : Prop :=
  ∀ (x : Reg) (s : State),
    (s.cfg.hasFx33 = true → s.mem.wf = true → s.I.toNat + 2 ≤ 0xFFF → ∃ t, exec (.ldB x) s = .next t ∧
      (t.mem.read s.I.toNat).toNat = (s.reg x).toNat / 100 ∧
      (t.mem.read (s.I.toNat + 1)).toNat = (s.reg x).toNat / 10 % 10 ∧
      (t.mem.read (s.I.toNat + 2)).toNat = (s.reg x).toNat % 10 ∧
      (∀ a, a < s.I.toNat ∨ s.I.toNat + 2 < a → t.mem.read a = s.mem.read a) ∧
      t.pc = s.pc + 2 ∧ s.SameRegsBut t [] ∧ s.SameBut t [.mem, .pc]) ∧
    (s.cfg.hasFx33 = false →
      exec (.ldB x) s = .next (s.setStatus (.halted ⟨.unknownOpcode, s.pc, some (encode (.ldB x))⟩)))

/-- R165: Fx55 stores V0..Vx at I..I + x and nowhere else. That I is unchanged is the spec's decision D16
(log 13). -/
def Obligations.RegisterStoreWritesMemory : Prop :=
  ∀ (x : Reg) (s : State), s.mem.wf = true → s.I.toNat + x.val ≤ 0xFFF →
    ∃ t, exec (.storeRegs x) s = .next t ∧
      (∀ k : Reg, k ≤ x → t.mem.read (s.I.toNat + k.val) = s.reg k) ∧
      (∀ a, a < s.I.toNat ∨ s.I.toNat + x.val < a → t.mem.read a = s.mem.read a) ∧
      t.pc = s.pc + 2 ∧ s.SameRegsBut t [] ∧ s.SameBut t [.mem, .pc]

/-- R166: Fx65 loads V0..Vx from I..I + x; the registers above Vx and I are unchanged. That I is unchanged is the spec's
decision D16 (log 13). -/
def Obligations.RegisterLoadReadsMemory : Prop :=
  ∀ (x : Reg) (s : State), s.I.toNat + x.val ≤ 0xFFF →
    ∃ t, exec (.loadRegs x) s = .next t ∧
      (∀ k : Reg, t.reg k = (if k ≤ x then s.mem.read (s.I.toNat + k.val) else s.reg k)) ∧
      t.pc = s.pc + 2 ∧ s.SameBut t [.pc]

/-- R165, R166: what Fx55 stored, Fx65 loads back from the same I, whatever the registers hold by then. That neither
changes I is the spec's decision D16 (log 13). -/
def Obligations.StoreThenLoadRestoresRegisters : Prop :=
  ∀ (x : Reg) (s u : State), s.mem.wf = true → s.I.toNat + x.val ≤ 0xFFF →
    ∃ t, exec (.storeRegs x) s = .next t ∧
      (u.mem = t.mem → u.I = t.I → ∃ v, exec (.loadRegs x) u = .next v ∧ ∀ k : Reg, k ≤ x → v.reg k = s.reg k)

/-- R263: bytes stored by Fx55 or Fx33 are what the next fetch from there reads. Rests on the spec's decision D31 (log
27) and, for Fx33, on D19 (log 9). -/
def Obligations.StoredBytesAreFetched : Prop :=
  ∀ (x : Reg) (s : State), s.mem.wf = true →
    (s.I.toNat + x.val ≤ 0xFFF → ∃ t, exec (.storeRegs x) s = .next t ∧
      ∀ (u : State) (a b : Reg), u.mem = t.mem → b.val = a.val + 1 → b ≤ x → u.pc.toNat = s.I.toNat + a.val →
        u.fetchWord = wordOfBytes (s.reg a) (s.reg b)) ∧
    (s.cfg.hasFx33 = true → s.I.toNat + 2 ≤ 0xFFF → ∃ t, exec (.ldB x) s = .next t ∧
      ∀ u : State, u.mem = t.mem →
        (u.pc.toNat = s.I.toNat →
          u.fetchWord.toNat = (s.reg x).toNat / 100 * 256 + (s.reg x).toNat / 10 % 10) ∧
        (u.pc.toNat = s.I.toNat + 1 →
          u.fetchWord.toNat = (s.reg x).toNat / 10 % 10 * 256 + (s.reg x).toNat % 10))

/-! ### Host events (60_exceptions.md) -/

/-- R222, R215: a tick counts both timers down to 0 and emits one Beep exactly when ST was 1; after the run has ended it
does nothing. That it does nothing then is the spec's decisions D2 and D33 (log 25, 29); how the events are
held and the trace are the model's (log 22, 23). -/
def Obligations.TickCountsDownAndBeeps : Prop :=
  ∀ s : State, s.nextEvent = .tick →
    (s.status = .running → ∃ t, step s = .next t ∧
      t.DT.toNat = s.DT.toNat - 1 ∧ t.ST.toNat = s.ST.toNat - 1 ∧
      t.trace = (if s.ST = 1 then s.trace ++ [.beep] else s.trace) ∧
      s.SameRegsBut t [] ∧ s.takeEvent.SameBut t [.DT, .ST, .trace]) ∧
    (s.status ≠ .running → step s = .next s.takeEvent)

/-- R224, R226: a key press marks the key and, when a wait is pending, writes the key's code into its register, clears the
latch and moves pc on by 2, all in one event. That every press resolves, a repeated one too, is the spec's decision D25,
and the range of codes is D26 (log 21); how the events are held is the model's (log 22). -/
def Obligations.KeyPressMarksKeyAndResolvesWait : Prop :=
  ∀ (s : State) (k : Key), s.nextEvent = .keyDown k → s.status = .running →
    (∀ x, s.latch = .await x → ∃ t, step s = .next t ∧ t.latch = .none ∧ (t.reg x).toNat = k.val ∧
      t.pc = s.pc + 2 ∧ (∀ j : Key, t.key[j.val] = (if j = k then true else s.key[j.val])) ∧
      s.SameRegsBut t [x] ∧ s.takeEvent.SameBut t [.latch, .pc, .key]) ∧
    (s.latch = .none → ∃ t, step s = .next t ∧
      (∀ j : Key, t.key[j.val] = (if j = k then true else s.key[j.val])) ∧
      s.SameRegsBut t [] ∧ s.takeEvent.SameBut t [.key])

/-- R225, R227, R228: a release clears its key alone, a render acknowledgement the dirty flag alone, and Stop ends the run
with all other state kept. The spec's decisions D25, D29 and D33 (log 21, 29); how the events are held
is the model's (log 22). -/
def Obligations.ReleaseAckAndStop : Prop :=
  ∀ s : State, s.status = .running →
    (∀ k : Key, s.nextEvent = .keyUp k → ∃ t, step s = .next t ∧
      (∀ j : Key, t.key[j.val] = (if j = k then false else s.key[j.val])) ∧
      s.SameRegsBut t [] ∧ s.takeEvent.SameBut t [.key]) ∧
    (s.nextEvent = .renderAck → ∃ t, step s = .next t ∧ t.dirty = false ∧
      s.SameRegsBut t [] ∧ s.takeEvent.SameBut t [.dirty]) ∧
    (s.nextEvent = .stop → ∃ t, step s = .next t ∧ t.status = .stopped ∧
      s.SameRegsBut t [] ∧ s.takeEvent.SameBut t [.status])

/-- R232, R226: during a key wait a Step does nothing, the timers keep counting, and only a key press wakes the engine.
That every press ends the wait and a release never does is the spec's decision D25 (log 21); how the events are
held is the model's (log 22). -/
def Obligations.KeyWaitSuspendsOnlyTheEngine : Prop :=
  ∀ (s : State) (x : Reg), s.status = .running → s.latch = .await x →
    (s.nextEvent = .step → step s = .next s.takeEvent) ∧
    (s.nextEvent = .tick → ∃ t, step s = .next t ∧ t.latch = .await x ∧
      t.DT.toNat = s.DT.toNat - 1 ∧ t.ST.toNat = s.ST.toNat - 1 ∧
      s.SameRegsBut t [] ∧ s.takeEvent.SameBut t [.DT, .ST, .trace]) ∧
    (∀ t, step s = .next t → (t.latch = .none ↔ ∃ k, s.nextEvent = .keyDown k))

/-! ### Construction and reset (70_reset_and_hazards.md) -/

/-- R252, R257: the state after reset, field by field, and the font in memory. Of these the spec's source states only the
pc; the rest are the spec's decisions D7, D8, D9 and D10 (log 3 to 6). -/
def Obligations.ResetHoldsConstructionValues : Prop :=
  State.reset.pc = 0x200 ∧ (∀ r, State.reset.reg r = 0) ∧ State.reset.I = 0 ∧ State.reset.DT = 0 ∧
  State.reset.ST = 0 ∧ State.reset.stack = [] ∧ (∀ c r, State.reset.pixel c r = false) ∧
  State.reset.dirty = false ∧ (∀ k : Key, State.reset.key[k.val] = false) ∧ State.reset.latch = .none ∧
  State.reset.status = .running ∧
  (∀ a, a < 80 → State.reset.mem.read a = Config.spec.font.toList.getD a 0) ∧
  (∀ a, 80 ≤ a → State.reset.mem.read a = 0)

/-- R257: the state after reset is what construction from an empty ROM image gives under the spec's parameter values.
The values are those of log 3 to 6, and log 34 says how a program is loaded. -/
def Obligations.ResetIsConstructionFromEmptyRom : Prop :=
  construct Config.spec [] = .next State.reset

/-- R256: with an empty ROM and ZERO_INIT the first Step fetches 0x0000 at 0x200 and halts, whatever events come after
it. That free memory is 0 is the spec's decision D8 (log 5), the halt is D2 and D4 (log 25). -/
def Obligations.EmptyRomHaltsAtFirstStep : Prop :=
  ∀ rest : List HostEvent, step (State.reset.setPending (.step :: rest)) =
    .next ((State.reset.setPending rest).setStatus (.halted ⟨.unknownOpcode, 0x200, some 0x0000⟩))

/-- R251, R210, R255: construction loads the font and the ROM image verbatim, free memory is 0 under ZERO_INIT, and an
image longer than 3584 bytes gives no machine. The values of free memory, the font bytes and the refusal are the spec's
decisions D8, D10 and D28 (log 5, 3, 28). -/
def Obligations.ConstructionLoadsFontAndRom : Prop :=
  ∀ (cfg : Config) (rom : List Byte),
    (rom.length ≤ 3584 → ∃ s, construct cfg rom = .next s ∧ s.pc = 0x200 ∧
      (∀ a (h : a < 80), s.mem.read a = cfg.font[a]) ∧
      (∀ k (h : k < rom.length), s.mem.read (0x200 + k) = rom[k]) ∧
      (cfg.zeroInit = true → ∀ a, 80 ≤ a → (a < 0x200 ∨ 0x200 + rom.length ≤ a) → s.mem.read a = 0)) ∧
    (3584 < rom.length → construct cfg rom = .fault .romTooLarge)

/-- The host's probe: a word placed with `withFetchWord` is what the very next step executes: the Step it
lists is taken off and the instruction runs (log 34). -/
def Obligations.PlacedWordIsExecutedNext : Prop :=
  ∀ (s : State) (w : Nat) (i : Instr), s.mem.wf = true → decodeTableWord 16 w = some i →
    step (s.withFetchWord 16 w) = exec i ((s.withFetchWord 16 w).setPending [])
end

