-- ==== Sys2Proof/Laws/State.lean ====
section
/-! SUPPORT. One lemma per field per setter of State, true by definition, so that no proof unfolds a record update. -/

namespace Sys2Proof.Machine.State

section
variable (s : State) (a : Vector Byte 16)
@[simp] theorem setV_V : (s.setV a).V = a := rfl
@[simp] theorem setV_I : (s.setV a).I = s.I := rfl
@[simp] theorem setV_pc : (s.setV a).pc = s.pc := rfl
@[simp] theorem setV_stack : (s.setV a).stack = s.stack := rfl
@[simp] theorem setV_mem : (s.setV a).mem = s.mem := rfl
@[simp] theorem setV_fb : (s.setV a).fb = s.fb := rfl
@[simp] theorem setV_dirty : (s.setV a).dirty = s.dirty := rfl
@[simp] theorem setV_key : (s.setV a).key = s.key := rfl
@[simp] theorem setV_latch : (s.setV a).latch = s.latch := rfl
@[simp] theorem setV_DT : (s.setV a).DT = s.DT := rfl
@[simp] theorem setV_ST : (s.setV a).ST = s.ST := rfl
@[simp] theorem setV_status : (s.setV a).status = s.status := rfl
@[simp] theorem setV_cfg : (s.setV a).cfg = s.cfg := rfl
@[simp] theorem setV_pending : (s.setV a).pending = s.pending := rfl
@[simp] theorem setV_trace : (s.setV a).trace = s.trace := rfl
@[simp] theorem setV_draws : (s.setV a).draws = s.draws := rfl
@[simp] theorem setV_freeEvents : (s.setV a).freeEvents = s.freeEvents := rfl
@[simp] theorem setV_pixel (c : Fin 64) (r : Fin 32) : (s.setV a).pixel c r = s.pixel c r := rfl
end

section
variable (s : State) (a : Word)
@[simp] theorem setI_V : (s.setI a).V = s.V := rfl
@[simp] theorem setI_I : (s.setI a).I = a := rfl
@[simp] theorem setI_pc : (s.setI a).pc = s.pc := rfl
@[simp] theorem setI_stack : (s.setI a).stack = s.stack := rfl
@[simp] theorem setI_mem : (s.setI a).mem = s.mem := rfl
@[simp] theorem setI_fb : (s.setI a).fb = s.fb := rfl
@[simp] theorem setI_dirty : (s.setI a).dirty = s.dirty := rfl
@[simp] theorem setI_key : (s.setI a).key = s.key := rfl
@[simp] theorem setI_latch : (s.setI a).latch = s.latch := rfl
@[simp] theorem setI_DT : (s.setI a).DT = s.DT := rfl
@[simp] theorem setI_ST : (s.setI a).ST = s.ST := rfl
@[simp] theorem setI_status : (s.setI a).status = s.status := rfl
@[simp] theorem setI_cfg : (s.setI a).cfg = s.cfg := rfl
@[simp] theorem setI_pending : (s.setI a).pending = s.pending := rfl
@[simp] theorem setI_trace : (s.setI a).trace = s.trace := rfl
@[simp] theorem setI_draws : (s.setI a).draws = s.draws := rfl
@[simp] theorem setI_freeEvents : (s.setI a).freeEvents = s.freeEvents := rfl
@[simp] theorem setI_reg (r : Reg) : (s.setI a).reg r = s.reg r := rfl
@[simp] theorem setI_pixel (c : Fin 64) (r : Fin 32) : (s.setI a).pixel c r = s.pixel c r := rfl
end

section
variable (s : State) (a : Word)
@[simp] theorem setPc_V : (s.setPc a).V = s.V := rfl
@[simp] theorem setPc_I : (s.setPc a).I = s.I := rfl
@[simp] theorem setPc_pc : (s.setPc a).pc = a := rfl
@[simp] theorem setPc_stack : (s.setPc a).stack = s.stack := rfl
@[simp] theorem setPc_mem : (s.setPc a).mem = s.mem := rfl
@[simp] theorem setPc_fb : (s.setPc a).fb = s.fb := rfl
@[simp] theorem setPc_dirty : (s.setPc a).dirty = s.dirty := rfl
@[simp] theorem setPc_key : (s.setPc a).key = s.key := rfl
@[simp] theorem setPc_latch : (s.setPc a).latch = s.latch := rfl
@[simp] theorem setPc_DT : (s.setPc a).DT = s.DT := rfl
@[simp] theorem setPc_ST : (s.setPc a).ST = s.ST := rfl
@[simp] theorem setPc_status : (s.setPc a).status = s.status := rfl
@[simp] theorem setPc_cfg : (s.setPc a).cfg = s.cfg := rfl
@[simp] theorem setPc_pending : (s.setPc a).pending = s.pending := rfl
@[simp] theorem setPc_trace : (s.setPc a).trace = s.trace := rfl
@[simp] theorem setPc_draws : (s.setPc a).draws = s.draws := rfl
@[simp] theorem setPc_freeEvents : (s.setPc a).freeEvents = s.freeEvents := rfl
@[simp] theorem setPc_reg (r : Reg) : (s.setPc a).reg r = s.reg r := rfl
@[simp] theorem setPc_pixel (c : Fin 64) (r : Fin 32) : (s.setPc a).pixel c r = s.pixel c r := rfl
end

section
variable (s : State) (a : List Word)
@[simp] theorem setStack_V : (s.setStack a).V = s.V := rfl
@[simp] theorem setStack_I : (s.setStack a).I = s.I := rfl
@[simp] theorem setStack_pc : (s.setStack a).pc = s.pc := rfl
@[simp] theorem setStack_stack : (s.setStack a).stack = a := rfl
@[simp] theorem setStack_mem : (s.setStack a).mem = s.mem := rfl
@[simp] theorem setStack_fb : (s.setStack a).fb = s.fb := rfl
@[simp] theorem setStack_dirty : (s.setStack a).dirty = s.dirty := rfl
@[simp] theorem setStack_key : (s.setStack a).key = s.key := rfl
@[simp] theorem setStack_latch : (s.setStack a).latch = s.latch := rfl
@[simp] theorem setStack_DT : (s.setStack a).DT = s.DT := rfl
@[simp] theorem setStack_ST : (s.setStack a).ST = s.ST := rfl
@[simp] theorem setStack_status : (s.setStack a).status = s.status := rfl
@[simp] theorem setStack_cfg : (s.setStack a).cfg = s.cfg := rfl
@[simp] theorem setStack_pending : (s.setStack a).pending = s.pending := rfl
@[simp] theorem setStack_trace : (s.setStack a).trace = s.trace := rfl
@[simp] theorem setStack_draws : (s.setStack a).draws = s.draws := rfl
@[simp] theorem setStack_freeEvents : (s.setStack a).freeEvents = s.freeEvents := rfl
@[simp] theorem setStack_reg (r : Reg) : (s.setStack a).reg r = s.reg r := rfl
@[simp] theorem setStack_pixel (c : Fin 64) (r : Fin 32) : (s.setStack a).pixel c r = s.pixel c r := rfl
end

section
variable (s : State) (a : Memory)
@[simp] theorem setMem_V : (s.setMem a).V = s.V := rfl
@[simp] theorem setMem_I : (s.setMem a).I = s.I := rfl
@[simp] theorem setMem_pc : (s.setMem a).pc = s.pc := rfl
@[simp] theorem setMem_stack : (s.setMem a).stack = s.stack := rfl
@[simp] theorem setMem_mem : (s.setMem a).mem = a := rfl
@[simp] theorem setMem_fb : (s.setMem a).fb = s.fb := rfl
@[simp] theorem setMem_dirty : (s.setMem a).dirty = s.dirty := rfl
@[simp] theorem setMem_key : (s.setMem a).key = s.key := rfl
@[simp] theorem setMem_latch : (s.setMem a).latch = s.latch := rfl
@[simp] theorem setMem_DT : (s.setMem a).DT = s.DT := rfl
@[simp] theorem setMem_ST : (s.setMem a).ST = s.ST := rfl
@[simp] theorem setMem_status : (s.setMem a).status = s.status := rfl
@[simp] theorem setMem_cfg : (s.setMem a).cfg = s.cfg := rfl
@[simp] theorem setMem_pending : (s.setMem a).pending = s.pending := rfl
@[simp] theorem setMem_trace : (s.setMem a).trace = s.trace := rfl
@[simp] theorem setMem_draws : (s.setMem a).draws = s.draws := rfl
@[simp] theorem setMem_freeEvents : (s.setMem a).freeEvents = s.freeEvents := rfl
@[simp] theorem setMem_reg (r : Reg) : (s.setMem a).reg r = s.reg r := rfl
@[simp] theorem setMem_pixel (c : Fin 64) (r : Fin 32) : (s.setMem a).pixel c r = s.pixel c r := rfl
end

section
variable (s : State) (a : Framebuffer)
@[simp] theorem setFb_V : (s.setFb a).V = s.V := rfl
@[simp] theorem setFb_I : (s.setFb a).I = s.I := rfl
@[simp] theorem setFb_pc : (s.setFb a).pc = s.pc := rfl
@[simp] theorem setFb_stack : (s.setFb a).stack = s.stack := rfl
@[simp] theorem setFb_mem : (s.setFb a).mem = s.mem := rfl
@[simp] theorem setFb_fb : (s.setFb a).fb = a := rfl
@[simp] theorem setFb_dirty : (s.setFb a).dirty = s.dirty := rfl
@[simp] theorem setFb_key : (s.setFb a).key = s.key := rfl
@[simp] theorem setFb_latch : (s.setFb a).latch = s.latch := rfl
@[simp] theorem setFb_DT : (s.setFb a).DT = s.DT := rfl
@[simp] theorem setFb_ST : (s.setFb a).ST = s.ST := rfl
@[simp] theorem setFb_status : (s.setFb a).status = s.status := rfl
@[simp] theorem setFb_cfg : (s.setFb a).cfg = s.cfg := rfl
@[simp] theorem setFb_pending : (s.setFb a).pending = s.pending := rfl
@[simp] theorem setFb_trace : (s.setFb a).trace = s.trace := rfl
@[simp] theorem setFb_draws : (s.setFb a).draws = s.draws := rfl
@[simp] theorem setFb_freeEvents : (s.setFb a).freeEvents = s.freeEvents := rfl
@[simp] theorem setFb_reg (r : Reg) : (s.setFb a).reg r = s.reg r := rfl
end

section
variable (s : State) (a : Bool)
@[simp] theorem setDirty_V : (s.setDirty a).V = s.V := rfl
@[simp] theorem setDirty_I : (s.setDirty a).I = s.I := rfl
@[simp] theorem setDirty_pc : (s.setDirty a).pc = s.pc := rfl
@[simp] theorem setDirty_stack : (s.setDirty a).stack = s.stack := rfl
@[simp] theorem setDirty_mem : (s.setDirty a).mem = s.mem := rfl
@[simp] theorem setDirty_fb : (s.setDirty a).fb = s.fb := rfl
@[simp] theorem setDirty_dirty : (s.setDirty a).dirty = a := rfl
@[simp] theorem setDirty_key : (s.setDirty a).key = s.key := rfl
@[simp] theorem setDirty_latch : (s.setDirty a).latch = s.latch := rfl
@[simp] theorem setDirty_DT : (s.setDirty a).DT = s.DT := rfl
@[simp] theorem setDirty_ST : (s.setDirty a).ST = s.ST := rfl
@[simp] theorem setDirty_status : (s.setDirty a).status = s.status := rfl
@[simp] theorem setDirty_cfg : (s.setDirty a).cfg = s.cfg := rfl
@[simp] theorem setDirty_pending : (s.setDirty a).pending = s.pending := rfl
@[simp] theorem setDirty_trace : (s.setDirty a).trace = s.trace := rfl
@[simp] theorem setDirty_draws : (s.setDirty a).draws = s.draws := rfl
@[simp] theorem setDirty_freeEvents : (s.setDirty a).freeEvents = s.freeEvents := rfl
@[simp] theorem setDirty_reg (r : Reg) : (s.setDirty a).reg r = s.reg r := rfl
@[simp] theorem setDirty_pixel (c : Fin 64) (r : Fin 32) : (s.setDirty a).pixel c r = s.pixel c r := rfl
end

section
variable (s : State) (a : Vector Bool 16)
@[simp] theorem setKeys_V : (s.setKeys a).V = s.V := rfl
@[simp] theorem setKeys_I : (s.setKeys a).I = s.I := rfl
@[simp] theorem setKeys_pc : (s.setKeys a).pc = s.pc := rfl
@[simp] theorem setKeys_stack : (s.setKeys a).stack = s.stack := rfl
@[simp] theorem setKeys_mem : (s.setKeys a).mem = s.mem := rfl
@[simp] theorem setKeys_fb : (s.setKeys a).fb = s.fb := rfl
@[simp] theorem setKeys_dirty : (s.setKeys a).dirty = s.dirty := rfl
@[simp] theorem setKeys_key : (s.setKeys a).key = a := rfl
@[simp] theorem setKeys_latch : (s.setKeys a).latch = s.latch := rfl
@[simp] theorem setKeys_DT : (s.setKeys a).DT = s.DT := rfl
@[simp] theorem setKeys_ST : (s.setKeys a).ST = s.ST := rfl
@[simp] theorem setKeys_status : (s.setKeys a).status = s.status := rfl
@[simp] theorem setKeys_cfg : (s.setKeys a).cfg = s.cfg := rfl
@[simp] theorem setKeys_pending : (s.setKeys a).pending = s.pending := rfl
@[simp] theorem setKeys_trace : (s.setKeys a).trace = s.trace := rfl
@[simp] theorem setKeys_draws : (s.setKeys a).draws = s.draws := rfl
@[simp] theorem setKeys_freeEvents : (s.setKeys a).freeEvents = s.freeEvents := rfl
@[simp] theorem setKeys_reg (r : Reg) : (s.setKeys a).reg r = s.reg r := rfl
@[simp] theorem setKeys_pixel (c : Fin 64) (r : Fin 32) : (s.setKeys a).pixel c r = s.pixel c r := rfl
end

section
variable (s : State) (a : Latch)
@[simp] theorem setLatch_V : (s.setLatch a).V = s.V := rfl
@[simp] theorem setLatch_I : (s.setLatch a).I = s.I := rfl
@[simp] theorem setLatch_pc : (s.setLatch a).pc = s.pc := rfl
@[simp] theorem setLatch_stack : (s.setLatch a).stack = s.stack := rfl
@[simp] theorem setLatch_mem : (s.setLatch a).mem = s.mem := rfl
@[simp] theorem setLatch_fb : (s.setLatch a).fb = s.fb := rfl
@[simp] theorem setLatch_dirty : (s.setLatch a).dirty = s.dirty := rfl
@[simp] theorem setLatch_key : (s.setLatch a).key = s.key := rfl
@[simp] theorem setLatch_latch : (s.setLatch a).latch = a := rfl
@[simp] theorem setLatch_DT : (s.setLatch a).DT = s.DT := rfl
@[simp] theorem setLatch_ST : (s.setLatch a).ST = s.ST := rfl
@[simp] theorem setLatch_status : (s.setLatch a).status = s.status := rfl
@[simp] theorem setLatch_cfg : (s.setLatch a).cfg = s.cfg := rfl
@[simp] theorem setLatch_pending : (s.setLatch a).pending = s.pending := rfl
@[simp] theorem setLatch_trace : (s.setLatch a).trace = s.trace := rfl
@[simp] theorem setLatch_draws : (s.setLatch a).draws = s.draws := rfl
@[simp] theorem setLatch_freeEvents : (s.setLatch a).freeEvents = s.freeEvents := rfl
@[simp] theorem setLatch_reg (r : Reg) : (s.setLatch a).reg r = s.reg r := rfl
@[simp] theorem setLatch_pixel (c : Fin 64) (r : Fin 32) : (s.setLatch a).pixel c r = s.pixel c r := rfl
end

section
variable (s : State) (a : Byte)
@[simp] theorem setDT_V : (s.setDT a).V = s.V := rfl
@[simp] theorem setDT_I : (s.setDT a).I = s.I := rfl
@[simp] theorem setDT_pc : (s.setDT a).pc = s.pc := rfl
@[simp] theorem setDT_stack : (s.setDT a).stack = s.stack := rfl
@[simp] theorem setDT_mem : (s.setDT a).mem = s.mem := rfl
@[simp] theorem setDT_fb : (s.setDT a).fb = s.fb := rfl
@[simp] theorem setDT_dirty : (s.setDT a).dirty = s.dirty := rfl
@[simp] theorem setDT_key : (s.setDT a).key = s.key := rfl
@[simp] theorem setDT_latch : (s.setDT a).latch = s.latch := rfl
@[simp] theorem setDT_DT : (s.setDT a).DT = a := rfl
@[simp] theorem setDT_ST : (s.setDT a).ST = s.ST := rfl
@[simp] theorem setDT_status : (s.setDT a).status = s.status := rfl
@[simp] theorem setDT_cfg : (s.setDT a).cfg = s.cfg := rfl
@[simp] theorem setDT_pending : (s.setDT a).pending = s.pending := rfl
@[simp] theorem setDT_trace : (s.setDT a).trace = s.trace := rfl
@[simp] theorem setDT_draws : (s.setDT a).draws = s.draws := rfl
@[simp] theorem setDT_freeEvents : (s.setDT a).freeEvents = s.freeEvents := rfl
@[simp] theorem setDT_reg (r : Reg) : (s.setDT a).reg r = s.reg r := rfl
@[simp] theorem setDT_pixel (c : Fin 64) (r : Fin 32) : (s.setDT a).pixel c r = s.pixel c r := rfl
end

section
variable (s : State) (a : Byte)
@[simp] theorem setST_V : (s.setST a).V = s.V := rfl
@[simp] theorem setST_I : (s.setST a).I = s.I := rfl
@[simp] theorem setST_pc : (s.setST a).pc = s.pc := rfl
@[simp] theorem setST_stack : (s.setST a).stack = s.stack := rfl
@[simp] theorem setST_mem : (s.setST a).mem = s.mem := rfl
@[simp] theorem setST_fb : (s.setST a).fb = s.fb := rfl
@[simp] theorem setST_dirty : (s.setST a).dirty = s.dirty := rfl
@[simp] theorem setST_key : (s.setST a).key = s.key := rfl
@[simp] theorem setST_latch : (s.setST a).latch = s.latch := rfl
@[simp] theorem setST_DT : (s.setST a).DT = s.DT := rfl
@[simp] theorem setST_ST : (s.setST a).ST = a := rfl
@[simp] theorem setST_status : (s.setST a).status = s.status := rfl
@[simp] theorem setST_cfg : (s.setST a).cfg = s.cfg := rfl
@[simp] theorem setST_pending : (s.setST a).pending = s.pending := rfl
@[simp] theorem setST_trace : (s.setST a).trace = s.trace := rfl
@[simp] theorem setST_draws : (s.setST a).draws = s.draws := rfl
@[simp] theorem setST_freeEvents : (s.setST a).freeEvents = s.freeEvents := rfl
@[simp] theorem setST_reg (r : Reg) : (s.setST a).reg r = s.reg r := rfl
@[simp] theorem setST_pixel (c : Fin 64) (r : Fin 32) : (s.setST a).pixel c r = s.pixel c r := rfl
end

section
variable (s : State) (a : Status)
@[simp] theorem setStatus_V : (s.setStatus a).V = s.V := rfl
@[simp] theorem setStatus_I : (s.setStatus a).I = s.I := rfl
@[simp] theorem setStatus_pc : (s.setStatus a).pc = s.pc := rfl
@[simp] theorem setStatus_stack : (s.setStatus a).stack = s.stack := rfl
@[simp] theorem setStatus_mem : (s.setStatus a).mem = s.mem := rfl
@[simp] theorem setStatus_fb : (s.setStatus a).fb = s.fb := rfl
@[simp] theorem setStatus_dirty : (s.setStatus a).dirty = s.dirty := rfl
@[simp] theorem setStatus_key : (s.setStatus a).key = s.key := rfl
@[simp] theorem setStatus_latch : (s.setStatus a).latch = s.latch := rfl
@[simp] theorem setStatus_DT : (s.setStatus a).DT = s.DT := rfl
@[simp] theorem setStatus_ST : (s.setStatus a).ST = s.ST := rfl
@[simp] theorem setStatus_status : (s.setStatus a).status = a := rfl
@[simp] theorem setStatus_cfg : (s.setStatus a).cfg = s.cfg := rfl
@[simp] theorem setStatus_pending : (s.setStatus a).pending = s.pending := rfl
@[simp] theorem setStatus_trace : (s.setStatus a).trace = s.trace := rfl
@[simp] theorem setStatus_draws : (s.setStatus a).draws = s.draws := rfl
@[simp] theorem setStatus_freeEvents : (s.setStatus a).freeEvents = s.freeEvents := rfl
@[simp] theorem setStatus_reg (r : Reg) : (s.setStatus a).reg r = s.reg r := rfl
@[simp] theorem setStatus_pixel (c : Fin 64) (r : Fin 32) : (s.setStatus a).pixel c r = s.pixel c r := rfl
end

section
variable (s : State) (a : List HostEvent)
@[simp] theorem setPending_V : (s.setPending a).V = s.V := rfl
@[simp] theorem setPending_I : (s.setPending a).I = s.I := rfl
@[simp] theorem setPending_pc : (s.setPending a).pc = s.pc := rfl
@[simp] theorem setPending_stack : (s.setPending a).stack = s.stack := rfl
@[simp] theorem setPending_mem : (s.setPending a).mem = s.mem := rfl
@[simp] theorem setPending_fb : (s.setPending a).fb = s.fb := rfl
@[simp] theorem setPending_dirty : (s.setPending a).dirty = s.dirty := rfl
@[simp] theorem setPending_key : (s.setPending a).key = s.key := rfl
@[simp] theorem setPending_latch : (s.setPending a).latch = s.latch := rfl
@[simp] theorem setPending_DT : (s.setPending a).DT = s.DT := rfl
@[simp] theorem setPending_ST : (s.setPending a).ST = s.ST := rfl
@[simp] theorem setPending_status : (s.setPending a).status = s.status := rfl
@[simp] theorem setPending_cfg : (s.setPending a).cfg = s.cfg := rfl
@[simp] theorem setPending_pending : (s.setPending a).pending = a := rfl
@[simp] theorem setPending_trace : (s.setPending a).trace = s.trace := rfl
@[simp] theorem setPending_draws : (s.setPending a).draws = s.draws := rfl
@[simp] theorem setPending_freeEvents : (s.setPending a).freeEvents = s.freeEvents := rfl
@[simp] theorem setPending_reg (r : Reg) : (s.setPending a).reg r = s.reg r := rfl
@[simp] theorem setPending_pixel (c : Fin 64) (r : Fin 32) : (s.setPending a).pixel c r = s.pixel c r := rfl
end

section
variable (s : State) (a : List Output)
@[simp] theorem setTrace_V : (s.setTrace a).V = s.V := rfl
@[simp] theorem setTrace_I : (s.setTrace a).I = s.I := rfl
@[simp] theorem setTrace_pc : (s.setTrace a).pc = s.pc := rfl
@[simp] theorem setTrace_stack : (s.setTrace a).stack = s.stack := rfl
@[simp] theorem setTrace_mem : (s.setTrace a).mem = s.mem := rfl
@[simp] theorem setTrace_fb : (s.setTrace a).fb = s.fb := rfl
@[simp] theorem setTrace_dirty : (s.setTrace a).dirty = s.dirty := rfl
@[simp] theorem setTrace_key : (s.setTrace a).key = s.key := rfl
@[simp] theorem setTrace_latch : (s.setTrace a).latch = s.latch := rfl
@[simp] theorem setTrace_DT : (s.setTrace a).DT = s.DT := rfl
@[simp] theorem setTrace_ST : (s.setTrace a).ST = s.ST := rfl
@[simp] theorem setTrace_status : (s.setTrace a).status = s.status := rfl
@[simp] theorem setTrace_cfg : (s.setTrace a).cfg = s.cfg := rfl
@[simp] theorem setTrace_pending : (s.setTrace a).pending = s.pending := rfl
@[simp] theorem setTrace_trace : (s.setTrace a).trace = a := rfl
@[simp] theorem setTrace_draws : (s.setTrace a).draws = s.draws := rfl
@[simp] theorem setTrace_freeEvents : (s.setTrace a).freeEvents = s.freeEvents := rfl
@[simp] theorem setTrace_reg (r : Reg) : (s.setTrace a).reg r = s.reg r := rfl
@[simp] theorem setTrace_pixel (c : Fin 64) (r : Fin 32) : (s.setTrace a).pixel c r = s.pixel c r := rfl
end

section
variable (s : State) (a : Nat)
@[simp] theorem setDraws_V : (s.setDraws a).V = s.V := rfl
@[simp] theorem setDraws_I : (s.setDraws a).I = s.I := rfl
@[simp] theorem setDraws_pc : (s.setDraws a).pc = s.pc := rfl
@[simp] theorem setDraws_stack : (s.setDraws a).stack = s.stack := rfl
@[simp] theorem setDraws_mem : (s.setDraws a).mem = s.mem := rfl
@[simp] theorem setDraws_fb : (s.setDraws a).fb = s.fb := rfl
@[simp] theorem setDraws_dirty : (s.setDraws a).dirty = s.dirty := rfl
@[simp] theorem setDraws_key : (s.setDraws a).key = s.key := rfl
@[simp] theorem setDraws_latch : (s.setDraws a).latch = s.latch := rfl
@[simp] theorem setDraws_DT : (s.setDraws a).DT = s.DT := rfl
@[simp] theorem setDraws_ST : (s.setDraws a).ST = s.ST := rfl
@[simp] theorem setDraws_status : (s.setDraws a).status = s.status := rfl
@[simp] theorem setDraws_cfg : (s.setDraws a).cfg = s.cfg := rfl
@[simp] theorem setDraws_pending : (s.setDraws a).pending = s.pending := rfl
@[simp] theorem setDraws_trace : (s.setDraws a).trace = s.trace := rfl
@[simp] theorem setDraws_draws : (s.setDraws a).draws = a := rfl
@[simp] theorem setDraws_freeEvents : (s.setDraws a).freeEvents = s.freeEvents := rfl
@[simp] theorem setDraws_reg (r : Reg) : (s.setDraws a).reg r = s.reg r := rfl
@[simp] theorem setDraws_pixel (c : Fin 64) (r : Fin 32) : (s.setDraws a).pixel c r = s.pixel c r := rfl
end

section
variable (s : State) (a : Nat)
@[simp] theorem setFreeEvents_V : (s.setFreeEvents a).V = s.V := rfl
@[simp] theorem setFreeEvents_I : (s.setFreeEvents a).I = s.I := rfl
@[simp] theorem setFreeEvents_pc : (s.setFreeEvents a).pc = s.pc := rfl
@[simp] theorem setFreeEvents_stack : (s.setFreeEvents a).stack = s.stack := rfl
@[simp] theorem setFreeEvents_mem : (s.setFreeEvents a).mem = s.mem := rfl
@[simp] theorem setFreeEvents_fb : (s.setFreeEvents a).fb = s.fb := rfl
@[simp] theorem setFreeEvents_dirty : (s.setFreeEvents a).dirty = s.dirty := rfl
@[simp] theorem setFreeEvents_key : (s.setFreeEvents a).key = s.key := rfl
@[simp] theorem setFreeEvents_latch : (s.setFreeEvents a).latch = s.latch := rfl
@[simp] theorem setFreeEvents_DT : (s.setFreeEvents a).DT = s.DT := rfl
@[simp] theorem setFreeEvents_ST : (s.setFreeEvents a).ST = s.ST := rfl
@[simp] theorem setFreeEvents_status : (s.setFreeEvents a).status = s.status := rfl
@[simp] theorem setFreeEvents_cfg : (s.setFreeEvents a).cfg = s.cfg := rfl
@[simp] theorem setFreeEvents_pending : (s.setFreeEvents a).pending = s.pending := rfl
@[simp] theorem setFreeEvents_trace : (s.setFreeEvents a).trace = s.trace := rfl
@[simp] theorem setFreeEvents_draws : (s.setFreeEvents a).draws = s.draws := rfl
@[simp] theorem setFreeEvents_freeEvents : (s.setFreeEvents a).freeEvents = a := rfl
@[simp] theorem setFreeEvents_reg (r : Reg) : (s.setFreeEvents a).reg r = s.reg r := rfl
@[simp] theorem setFreeEvents_pixel (c : Fin 64) (r : Fin 32) : (s.setFreeEvents a).pixel c r = s.pixel c r := rfl
end

section
variable (s : State) (x : Reg) (a : Byte)
@[simp] theorem setReg_I : (s.setReg x a).I = s.I := rfl
@[simp] theorem setReg_pc : (s.setReg x a).pc = s.pc := rfl
@[simp] theorem setReg_stack : (s.setReg x a).stack = s.stack := rfl
@[simp] theorem setReg_mem : (s.setReg x a).mem = s.mem := rfl
@[simp] theorem setReg_fb : (s.setReg x a).fb = s.fb := rfl
@[simp] theorem setReg_dirty : (s.setReg x a).dirty = s.dirty := rfl
@[simp] theorem setReg_key : (s.setReg x a).key = s.key := rfl
@[simp] theorem setReg_latch : (s.setReg x a).latch = s.latch := rfl
@[simp] theorem setReg_DT : (s.setReg x a).DT = s.DT := rfl
@[simp] theorem setReg_ST : (s.setReg x a).ST = s.ST := rfl
@[simp] theorem setReg_status : (s.setReg x a).status = s.status := rfl
@[simp] theorem setReg_cfg : (s.setReg x a).cfg = s.cfg := rfl
@[simp] theorem setReg_pending : (s.setReg x a).pending = s.pending := rfl
@[simp] theorem setReg_trace : (s.setReg x a).trace = s.trace := rfl
@[simp] theorem setReg_draws : (s.setReg x a).draws = s.draws := rfl
@[simp] theorem setReg_freeEvents : (s.setReg x a).freeEvents = s.freeEvents := rfl
@[simp] theorem setReg_pixel (c : Fin 64) (r : Fin 32) : (s.setReg x a).pixel c r = s.pixel c r := rfl
end

/-- A register write changes that register and no other. -/
@[simp] theorem reg_setReg (s : State) (x r : Reg) (a : Byte) :
    (s.setReg x a).reg r = if r = x then a else s.reg r := by
  simp [setReg, reg, setV, Vector.getElem_set, Fin.ext_iff, eq_comm]

/-- Two states with the same registers, register by register, have the same register file. -/
theorem V_eq_of_reg_eq {s t : State} (h : ∀ r, t.reg r = s.reg r) : t.V = s.V := by
  apply Vector.ext
  intro i hi
  exact h ⟨i, hi⟩

end Sys2Proof.Machine.State
end

