-- ==== Sys2Proof/Laws/Memory.lean ====
section
/-! SUPPORT. Memory: a read after a write, what a write leaves alone, and the canonical form every operation keeps. -/

namespace Sys2Proof.Machine.Memory

/-- The canonical form from a lower start is the canonical form from every smaller one. -/
theorem wfFrom_mono {m : Memory} {lo lo' : Nat} (h : m.wfFrom lo = true) (hle : lo' ≤ lo) : m.wfFrom lo' = true := by
  cases m with
  | nil => rfl
  | cons c rest =>
    obtain ⟨a, v⟩ := c
    simp only [wfFrom, Bool.and_eq_true, decide_eq_true_eq] at h ⊢
    exact ⟨⟨⟨by omega, h.1.1.2⟩, h.1.2⟩, h.2⟩

/-- An address below the first listed one reads as unlisted. -/
theorem read_of_lt {m : Memory} {lo a : Nat} (h : m.wfFrom lo = true) (ha : a < lo) : m.read a = unlisted a := by
  induction m generalizing lo with
  | nil => rfl
  | cons c rest ih =>
    obtain ⟨b, w⟩ := c
    simp only [wfFrom, Bool.and_eq_true, decide_eq_true_eq] at h
    have hne : a ≠ b := by omega
    simp only [read, hne, if_false]
    exact ih h.2 (by omega)

/-- A write leaves every other address alone (20_memory.md R56), whatever the list. -/
theorem read_write_of_ne (m : Memory) {a b : Nat} (v : Byte) (h : b ≠ a) : (m.write a v).read b = m.read b := by
  induction m with
  | nil => unfold write; split <;> simp [read, h]
  | cons c rest ih =>
    obtain ⟨k, w⟩ := c
    unfold write
    split
    · split <;> simp [read, h]
    · split
      · next hk => subst hk; split <;> simp [read, h]
      · simp only [read, ih]

/-- A read after a write to the same address, from any start of the canonical form. -/
theorem read_write_self_from {m : Memory} {lo : Nat} (h : m.wfFrom lo = true) (a : Nat) (v : Byte) :
    (m.write a v).read a = v := by
  induction m generalizing lo with
  | nil => unfold write; split <;> simp_all [read]
  | cons c rest ih =>
    obtain ⟨k, w⟩ := c
    simp only [wfFrom, Bool.and_eq_true, decide_eq_true_eq] at h
    have hk : Memory.wfFrom k ((k, w) :: rest) = true := by
      simp only [wfFrom, Bool.and_eq_true, decide_eq_true_eq]
      exact ⟨⟨⟨le_rfl, h.1.1.2⟩, h.1.2⟩, h.2⟩
    unfold write
    split
    · next hak =>
      split
      · next hv => rw [read_of_lt hk hak, hv]
      · simp [read]
    · split
      · next hak =>
        subst hak
        split
        · next hv => rw [read_of_lt h.2 (by omega), hv]
        · simp [read]
      · next hak => simp only [read, hak, if_false]; exact ih h.2

/-- A read after a write to the same address gives the byte written (20_memory.md R56). -/
theorem read_write_self {m : Memory} (h : m.wf = true) (a : Nat) (v : Byte) : (m.write a v).read a = v :=
  read_write_self_from h a v

/-- A write inside the address space keeps the canonical form. -/
theorem wfFrom_write {m : Memory} {lo a : Nat} {v : Byte} (h : m.wfFrom lo = true) (hlo : lo ≤ a)
    (ha : a < memSize) : (m.write a v).wfFrom lo = true := by
  induction m generalizing lo with
  | nil =>
    unfold write
    split
    · rfl
    · next hv => simp [wfFrom, hlo, ha, hv]
  | cons c rest ih =>
    obtain ⟨k, w⟩ := c
    have h0 := h
    simp only [wfFrom, Bool.and_eq_true, decide_eq_true_eq] at h
    obtain ⟨⟨⟨h1, h2⟩, h3⟩, h4⟩ := h
    unfold write
    split
    · next hak =>
      split
      · exact h0
      · next hv =>
        simp only [wfFrom, Bool.and_eq_true, decide_eq_true_eq]
        exact ⟨⟨⟨hlo, ha⟩, hv⟩, ⟨⟨⟨by omega, h2⟩, h3⟩, h4⟩⟩
    · split
      · next hak =>
        subst hak
        split
        · exact wfFrom_mono h4 (by omega)
        · next hv =>
          simp only [wfFrom, Bool.and_eq_true, decide_eq_true_eq]
          exact ⟨⟨⟨h1, ha⟩, hv⟩, h4⟩
      · simp only [wfFrom, Bool.and_eq_true, decide_eq_true_eq]
        exact ⟨⟨⟨h1, h2⟩, h3⟩, ih h4 (by omega)⟩

/-- A write inside the address space keeps memory canonical. -/
theorem wf_write {m : Memory} {a : Nat} {v : Byte} (h : m.wf = true) (ha : a < memSize) : (m.write a v).wf = true :=
  wfFrom_write h (Nat.zero_le a) ha

/-- Writing bytes inside the address space keeps memory canonical. -/
theorem wf_writeBytes {m : Memory} {a : Nat} {vs : List Byte} (h : m.wf = true) (ha : a + vs.length ≤ memSize) :
    (m.writeBytes a vs).wf = true := by
  induction vs generalizing m a with
  | nil => exact h
  | cons v vs ih =>
    simp only [List.length_cons] at ha
    exact ih (wf_write h (by omega)) (by omega)

/-- Writing bytes leaves every address outside them alone, whatever the list. -/
theorem read_writeBytes_of_outside {m : Memory} {a b : Nat} {vs : List Byte} (h : b < a ∨ a + vs.length ≤ b) :
    (m.writeBytes a vs).read b = m.read b := by
  induction vs generalizing m a with
  | nil => rfl
  | cons v vs ih =>
    simp only [List.length_cons] at h
    rw [writeBytes, ih (by omega), read_write_of_ne _ _ (by omega)]

/-- Byte `k` of a run of bytes written from `a` on is read back at `a + k`. -/
theorem read_writeBytes_inside {m : Memory} {a : Nat} {vs : List Byte} (hm : m.wf = true)
    (ha : a + vs.length ≤ memSize) (k : Nat) (hk : k < vs.length) : (m.writeBytes a vs).read (a + k) = vs[k] := by
  induction vs generalizing m a k with
  | nil => simp at hk
  | cons v vs ih =>
    simp only [List.length_cons] at ha hk
    rw [writeBytes]
    cases k with
    | zero => rw [read_writeBytes_of_outside (by omega)]; exact read_write_self hm a v
    | succ k =>
      rw [show a + (k + 1) = a + 1 + k by omega, ih (wf_write hm (by omega)) (by omega) k (by omega)]
      rfl

/-- Reading `n` bytes gives `n` bytes. -/
@[simp] theorem length_readBytes (m : Memory) (a n : Nat) : (m.readBytes a n).length = n := by
  induction n generalizing a with
  | zero => rfl
  | succ n ih => simp [readBytes, ih]

/-- Byte `k` of a run of bytes is the byte at `a + k`. -/
@[simp] theorem getElem_readBytes (m : Memory) (a n k : Nat) (h : k < (m.readBytes a n).length) :
    (m.readBytes a n)[k] = m.read (a + k) := by
  induction n generalizing a k with
  | zero => simp at h
  | succ n ih =>
    cases k with
    | zero => rfl
    | succ k =>
      simp only [length_readBytes] at h
      have := ih (a + 1) k (by simpa using h)
      simpa [readBytes, Nat.add_assoc, Nat.add_comm 1 k] using this

/-- Memory right after reset is canonical. -/
theorem wf_reset : State.reset.mem.wf = true := rfl

end Sys2Proof.Machine.Memory
end

