-- ==== Sys2Proof/Laws/Ops.lean ====
section
/-! SUPPORT. What each shared operation does, said once. -/

namespace Sys2Proof.Machine

/-- A run of addresses is in range exactly when none of them passes 0xFFF (20_memory.md R52). -/
theorem inRange_iff (base n : Nat) : inRange base n = true ↔ ∀ k, k < n → base + k ≤ 0xFFF := by
  simp only [inRange, decide_eq_true_eq, memSize]
  constructor
  · rintro (rfl | h) k hk <;> omega
  · intro h
    by_cases hn : n = 0
    · exact .inl hn
    · have := h (n - 1) (by omega)
      exact .inr (by omega)

namespace State

@[simp] theorem advance_def (s : State) : s.advance = s.setPc (s.pc + 2) := rfl

@[simp] theorem skipIf_def (s : State) (c : Bool) : s.skipIf c = s.setPc (if c then s.pc + 4 else s.pc + 2) := rfl

@[simp] theorem fatal_def (s : State) (r : FatalReason) (op : Option Word) :
    s.fatal r op = s.setStatus (.halted { reason := r, pc := s.pc, opcode := op }) := rfl

@[simp] theorem setFlag_def (s : State) (b : Bool) : s.setFlag b = s.setReg 15 (if b then 1 else 0) := rfl

@[simp] theorem setRegFlag_def (s : State) (x : Reg) (v : Byte) (b : Bool) :
    s.setRegFlag x v b = (s.setReg x v).setReg 15 (if b then 1 else 0) := rfl

@[simp] theorem setKey_def (s : State) (k : Key) (b : Bool) : s.setKey k b = s.setKeys (s.key.set k.val b) := rfl

/-- A key write changes that key and no other. -/
theorem keyPressed_setKey (s : State) (k j : Key) (b : Bool) :
    (s.setKey k b).keyPressed j = if j = k then b else s.keyPressed j := by
  simp [keyPressed, Vector.getElem_set, Fin.ext_iff, eq_comm]

/-- A register of the loaded file: from memory up to Vx, unchanged above (44_index_memory.md R166). -/
@[simp] theorem reg_setV_loadedRegs (s : State) (x r : Reg) :
    (s.setV (s.loadedRegs x)).reg r = if r ≤ x then s.mem.read (s.I.toNat + r.val) else s.reg r := by
  simp [reg, setV, loadedRegs]

/-- As many bytes are stored as there are registers up to Vx (44_index_memory.md R165). -/
@[simp] theorem length_regsUpTo (s : State) (x : Reg) : (s.regsUpTo x).length = x.val + 1 := by
  simp [regsUpTo]

/-- Byte `k` of the registers up to Vx is Vk. -/
@[simp] theorem getElem_regsUpTo (s : State) (x : Reg) (k : Nat) (h : k < (s.regsUpTo x).length) :
    (s.regsUpTo x)[k] = s.reg ⟨k, by simp at h; omega⟩ := by
  simp [regsUpTo, reg]

end State

/-- A key index exists exactly for a value up to 0xF, and is that value (43_keys_timers.md R156). -/
theorem keyIndex_eq_some (v : Byte) (k : Key) : keyIndex v = some k ↔ v.toNat = k.val := by
  unfold keyIndex
  split
  · simp [Fin.ext_iff]
  · simp; omega

/-- There is no key index above 0xF (43_keys_timers.md R156). -/
theorem keyIndex_eq_none (v : Byte) : keyIndex v = none ↔ 0xF < v.toNat := by
  unfold keyIndex
  split <;> simp <;> omega

/-- An address field keeps its value when it is extended (30_encoding.md R73). -/
@[simp] theorem toNat_address (nnn : Addr12) : (address nnn).toNat = nnn.toNat := by
  simp [address]; omega

/-- A register's value keeps its value when it is extended. -/
@[simp] theorem toNat_extend (v : Byte) : (extend v).toNat = v.toNat := by
  simp [extend]; omega

namespace Framebuffer

/-- Flipping a pixel inverts it and leaves every other pixel alone (40_display.md R102). -/
theorem pixel_flip (f : Framebuffer) (c c' : Fin 64) (r r' : Fin 32) :
    (f.flip c r).pixel c' r' = if c' = c ∧ r' = r then !f.pixel c' r' else f.pixel c' r' := by
  obtain ⟨c, hc⟩ := c
  obtain ⟨c', hc'⟩ := c'
  obtain ⟨r, hr⟩ := r
  obtain ⟨r', hr'⟩ := r'
  simp only [flip, pixel, Vector.getElem_set, Fin.mk.injEq]
  by_cases h : r = r'
  · subst h
    by_cases hcc : c' = c
    · subst hcc; simp [hc]
    · simp [BitVec.getLsbD_twoPow, hcc, Ne.symm hcc]
  · simp [h, Ne.symm h]

/-- A blank framebuffer has no pixel set. -/
@[simp] theorem pixel_blank (c : Fin 64) (r : Fin 32) : blank.pixel c r = false := by
  simp [blank, pixel]

/-- Two framebuffers with the same pixels are the same. -/
theorem ext_pixel {f g : Framebuffer} (h : ∀ c r, f.pixel c r = g.pixel c r) : f = g := by
  apply Vector.ext
  intro r hr
  apply BitVec.eq_of_getLsbD_eq
  intro c hc
  exact h ⟨c, hc⟩ ⟨r, hr⟩

end Framebuffer

/-- A state's pixel is its framebuffer's. -/
theorem State.pixel_eq (s : State) (c : Fin 64) (r : Fin 32) : s.pixel c r = Framebuffer.pixel s.fb c r := rfl

end Sys2Proof.Machine
end

