-- ==== Sys2Proof/Laws/Canvas.lean ====
section
/-! SUPPORT. What drawing a sprite does to the pixels and to the collision flag (40_display.md R101 to R104). -/

namespace Sys2Proof.Machine

/-- Column `c` of the screen is under one of the first `n` columns of a sprite row that starts at `vx`, and the row's
bit there is 1. -/
def Canvas.RowCovers (b : Byte) (vx n : Nat) (c : Fin 64) : Prop := ∃ j, j < n ∧ b.getLsbD (7 - j) = true ∧ (vx + j) % 64 = c.val

/-- A pixel is under a bit of 1 of a sprite drawn at (vx, vy). -/
def Canvas.Covers (rows : List Byte) (vx vy : Nat) (c : Fin 64) (r : Fin 32) : Prop :=
  ∃ i b, rows[i]? = some b ∧ (vy + i) % 32 = r.val ∧ RowCovers b vx 8 c

theorem Canvas.rowCovers_zero (b : Byte) (vx : Nat) (c : Fin 64) : ¬ RowCovers b vx 0 c := by
  rintro ⟨j, hj, _⟩; omega

theorem Canvas.rowCovers_succ (b : Byte) (vx n : Nat) (c : Fin 64) :
    RowCovers b vx (n + 1) c ↔ RowCovers b vx n c ∨ (b.getLsbD (7 - n) = true ∧ (vx + n) % 64 = c.val) := by
  constructor
  · rintro ⟨j, hj, hb, hc⟩
    by_cases h : j = n
    · subst h; exact .inr ⟨hb, hc⟩
    · exact .inl ⟨j, by omega, hb, hc⟩
  · rintro (⟨j, hj, hb, hc⟩ | ⟨hb, hc⟩)
    · exact ⟨j, by omega, hb, hc⟩
    · exact ⟨n, by omega, hb, hc⟩

theorem Canvas.covers_nil (vx vy : Nat) (c : Fin 64) (r : Fin 32) : ¬ Covers [] vx vy c r := by
  rintro ⟨i, b, h, _⟩; simp at h

theorem Canvas.covers_cons (b : Byte) (rows : List Byte) (vx vy : Nat) (c : Fin 64) (r : Fin 32) :
    Covers (b :: rows) vx vy c r ↔ (vy % 32 = r.val ∧ RowCovers b vx 8 c) ∨ Covers rows vx (vy + 1) c r := by
  constructor
  · rintro ⟨i, b', h, hr, hc⟩
    cases i with
    | zero => simp at h; subst h; exact .inl ⟨hr, hc⟩
    | succ i => exact .inr ⟨i, b', by simpa using h, by rw [← hr]; congr 1; omega, hc⟩
  · rintro (⟨hr, hc⟩ | ⟨i, b', h, hr, hc⟩)
    · exact ⟨0, b, rfl, hr, hc⟩
    · exact ⟨i + 1, b', by simpa using h, by rw [← hr]; congr 1; omega, hc⟩

/-- Drawing the first `n` columns of a row inverts exactly the pixels they cover, and the collision flag is set exactly
when one of those was set. -/
theorem Canvas.fold_drawColumn (b : Byte) (vx : Nat) (r : Fin 32) (k : Canvas) (n : Nat) (hn : n ≤ 8) :
    (∀ c r', ((List.range n).foldl (drawColumn b vx r) k).1.pixel c r' = true ↔
      (k.1.pixel c r' = true ↔ ¬ (r' = r ∧ RowCovers b vx n c))) ∧
    (((List.range n).foldl (drawColumn b vx r) k).2 = true ↔
      k.2 = true ∨ ∃ c, RowCovers b vx n c ∧ k.1.pixel c r = true) := by
  induction n with
  | zero => simp [rowCovers_zero]
  | succ n ih =>
    obtain ⟨ihp, ihc⟩ := ih (by omega)
    rw [List.range_succ, List.foldl_append]
    generalize hk : (List.range n).foldl (drawColumn b vx r) k = k' at ihp ihc ⊢
    simp only [List.foldl_cons, List.foldl_nil, drawColumn]
    have hone : ∀ c, (c = Fin.ofNat 64 (vx + n)) ↔ (vx + n) % 64 = c.val := by
      intro c; rw [Fin.ext_iff]; simp only [Fin.ofNat]; exact eq_comm
    generalize Fin.ofNat 64 (vx + n) = q at hone ⊢
    split
    · next hb =>
      have hfresh : ¬ RowCovers b vx n q := by
        rintro ⟨j, hj, _, hjc⟩
        have := (hone q).1 rfl
        omega
      constructor
      · intro c r'
        have := ihp c r'
        simp only [hit, Framebuffer.pixel_flip, rowCovers_succ, hb, true_and, ← hone]
        by_cases hr : r' = r
        · by_cases hc : c = q
          · subst hc hr
            have h1 : k'.1.pixel c r' = k.1.pixel c r' := by
              rw [Bool.eq_iff_iff]; simpa [hfresh] using this
            simp [h1]
          · simp_all
        · simp_all
      · simp only [hit, Bool.or_eq_true, ihc, rowCovers_succ, hb, true_and, ← hone]
        have := ihp q r
        constructor
        · rintro ((h | ⟨c, hc, hp⟩) | h)
          · exact .inl h
          · exact .inr ⟨c, .inl hc, hp⟩
          · exact .inr ⟨q, .inr rfl, by simp_all⟩
        · rintro (h | ⟨c, hc | rfl, hp⟩)
          · exact .inl (.inl h)
          · exact .inl (.inr ⟨c, hc, hp⟩)
          · right; simp_all
    · next hb =>
      have hsame : ∀ c, RowCovers b vx (n + 1) c ↔ RowCovers b vx n c := by
        intro c; rw [rowCovers_succ]; simp [hb]
      simp only [hsame]
      exact ⟨ihp, ihc⟩

/-- Drawing a sprite of at most 32 rows inverts exactly the pixels it covers, and the collision flag is set exactly when
one of those was set (R103, R104). -/
theorem Canvas.drawSprite_spec (rows : List Byte) (vx vy : Nat) (k : Canvas) (hlen : rows.length ≤ 32) :
    (∀ c r, (k.drawSprite vx vy rows).1.pixel c r = true ↔ (k.1.pixel c r = true ↔ ¬ Covers rows vx vy c r)) ∧
    ((k.drawSprite vx vy rows).2 = true ↔ k.2 = true ∨ ∃ c r, Covers rows vx vy c r ∧ k.1.pixel c r = true) := by
  induction rows generalizing vy k with
  | nil => simp [drawSprite, covers_nil]
  | cons b rows ih =>
    simp only [List.length_cons] at hlen
    obtain ⟨rowp, rowc⟩ := fold_drawColumn b vx (Fin.ofNat 32 vy) k 8 le_rfl
    obtain ⟨ihp, ihc⟩ := ih (vy + 1) (k.drawRow b vx (Fin.ofNat 32 vy)) (by omega)
    have hrow : ∀ r : Fin 32, (r = Fin.ofNat 32 vy) ↔ vy % 32 = r.val := by
      intro r; rw [Fin.ext_iff]; simp only [Fin.ofNat]; exact eq_comm
    have hcons : k.drawSprite vx vy (b :: rows) = (k.drawRow b vx (Fin.ofNat 32 vy)).drawSprite vx (vy + 1) rows := rfl
    generalize Fin.ofNat 32 vy = q at *
    have hlater : ∀ c, ¬ Covers rows vx (vy + 1) c q := by
      rintro c ⟨i, b', h, hr, _⟩
      have hi : i < rows.length := by
        rcases Nat.lt_or_ge i rows.length with hi | hi
        · exact hi
        · rw [List.getElem?_eq_none hi] at h; simp at h
      have := (hrow q).1 rfl
      omega
    change (∀ c r', (k.drawRow b vx q).1.pixel c r' = true ↔ _) at rowp
    change ((k.drawRow b vx q).2 = true ↔ _) at rowc
    have hpast : ∀ c r, r ≠ q → ((k.drawRow b vx q).1.pixel c r = true ↔ k.1.pixel c r = true) := by
      intro c r hr
      rw [rowp]
      simp [hr]
    constructor
    · intro c r
      rw [hcons, ihp, rowp, covers_cons, ← hrow]
      by_cases hr : r = q
      · subst hr
        have := hlater c
        simp_all
      · simp_all
    · rw [hcons, ihc, rowc]
      constructor
      · rintro ((h | ⟨c, hc, hp⟩) | ⟨c, r, hc, hp⟩)
        · exact .inl h
        · exact .inr ⟨c, q, (covers_cons ..).2 (.inl ⟨(hrow q).1 rfl, hc⟩), hp⟩
        · have hr : r ≠ q := by rintro rfl; exact hlater c hc
          exact .inr ⟨c, r, (covers_cons ..).2 (.inr hc), (hpast c r hr).1 hp⟩
      · rintro (h | ⟨c, r, hc, hp⟩)
        · exact .inl (.inl h)
        · rcases (covers_cons ..).1 hc with ⟨hr, hc⟩ | hc
          · obtain rfl := (hrow r).2 hr
            exact .inl (.inr ⟨c, hc, hp⟩)
          · have hr : r ≠ q := by rintro rfl; exact hlater c hc
            exact .inr ⟨c, r, hc, (hpast c r hr).2 hp⟩

end Sys2Proof.Machine
end

