-- ==== Sys2Proof/Laws/PerInstr.lean ====
section
/-! SUPPORT. Per-instruction laws about syntax: the word of an instruction lies in the instruction's own row of the
opcode map (30_encoding.md R75). -/

namespace Sys2Proof.Laws.EncodesRow

/-- The word of the instruction matches the mask and pattern of the row that carries its mnemonic. -/
def Statement (i : Instr) : Prop := ∃ row ∈ opcodeMap, row.mnemonic = i.mnemonic ∧ row.accepts (encode i) = true

/-- Masking a nibble with all ones leaves it. -/
theorem and_ones4 (h : BitVec 4) : h &&& 15#4 = h := BitVec.and_allOnes

/-- Masking a byte with all ones leaves it. -/
theorem and_ones8 (b : BitVec 8) : b &&& 255#8 = b := BitVec.and_allOnes

/-- The top nibble of a word with an address field. -/
theorem packAddr_family (h : BitVec 4) (nnn : Addr12) : packAddr h nnn &&& 0xF000#16 = h ++ 0#12 := by
  show (h ++ nnn : BitVec 16) &&& (0xF#4 ++ 0#12) = h ++ 0#12
  rw [BitVec.and_append]
  simp [and_ones4]

/-- The top nibble of a word with a register and an immediate. -/
theorem packImm_family (h : BitVec 4) (x : Reg) (nn : Byte) : packImm h x nn &&& 0xF000#16 = h ++ 0#12 :=
  packAddr_family h (nibble x ++ nn)

/-- The top nibble of a word with two registers. -/
theorem packRegs_family (h : BitVec 4) (x y : Reg) (n : BitVec 4) : packRegs h x y n &&& 0xF000#16 = h ++ 0#12 :=
  packAddr_family h (nibble x ++ (nibble y ++ n))

/-- The top nibble and low byte of a word with a register and a selecting byte. -/
theorem packImm_select (h : BitVec 4) (x : Reg) (nn : Byte) :
    packImm h x nn &&& 0xF0FF#16 = h ++ (0#4 ++ nn) := by
  show (h ++ (nibble x ++ nn) : BitVec 16) &&& (0xF#4 ++ (0#4 ++ 0xFF#8)) = h ++ (0#4 ++ nn)
  rw [BitVec.and_append, BitVec.and_append]
  simp [and_ones4, and_ones8]

/-- The top and low nibbles of a word with two registers. -/
theorem packRegs_select (h : BitVec 4) (x y : Reg) (n : BitVec 4) :
    packRegs h x y n &&& 0xF00F#16 = h ++ (0#4 ++ (0#4 ++ n)) := by
  show (h ++ (nibble x ++ (nibble y ++ n)) : BitVec 16) &&& (0xF#4 ++ (0#4 ++ (0#4 ++ 0xF#4))) = _
  rw [BitVec.and_append, BitVec.and_append, BitVec.and_append]
  simp [and_ones4]

/-- A row of the map that carries the mnemonic and accepts the word is what the statement asks for. -/
theorem of_row {i : Instr} (row : OpcodeRow) (hm : row ∈ opcodeMap) (hn : row.mnemonic = i.mnemonic)
    (ha : encode i &&& row.mask = row.pattern) : Statement i :=
  ⟨row, hm, hn, by simp [OpcodeRow.accepts, ha]⟩

theorem cls : Statement .cls := of_row ⟨"CLS", 0xFFFF, 0x00E0⟩ (by decide) rfl rfl
theorem ret : Statement .ret := of_row ⟨"RET", 0xFFFF, 0x00EE⟩ (by decide) rfl rfl
theorem jp (nnn : Addr12) : Statement (.jp nnn) := of_row ⟨"JP_nnn", 0xF000, 0x1000⟩ (by decide) rfl (packAddr_family _ _)
theorem call (nnn : Addr12) : Statement (.call nnn) :=
  of_row ⟨"CALL_nnn", 0xF000, 0x2000⟩ (by decide) rfl (packAddr_family _ _)
theorem seImm (x : Reg) (nn : Byte) : Statement (.seImm x nn) :=
  of_row ⟨"SE_Vx__nn", 0xF000, 0x3000⟩ (by decide) rfl (packImm_family _ _ _)
theorem sneImm (x : Reg) (nn : Byte) : Statement (.sneImm x nn) :=
  of_row ⟨"SNE_Vx__nn", 0xF000, 0x4000⟩ (by decide) rfl (packImm_family _ _ _)
theorem seReg (x : Reg) (y : Reg) : Statement (.seReg x y) :=
  of_row ⟨"SE_Vx__Vy", 0xF00F, 0x5000⟩ (by decide) rfl (packRegs_select _ _ _ _)
theorem ldImm (x : Reg) (nn : Byte) : Statement (.ldImm x nn) :=
  of_row ⟨"LD_Vx__nn", 0xF000, 0x6000⟩ (by decide) rfl (packImm_family _ _ _)
theorem addImm (x : Reg) (nn : Byte) : Statement (.addImm x nn) :=
  of_row ⟨"ADD_Vx__nn", 0xF000, 0x7000⟩ (by decide) rfl (packImm_family _ _ _)
theorem ldReg (x : Reg) (y : Reg) : Statement (.ldReg x y) :=
  of_row ⟨"LD_Vx__Vy", 0xF00F, 0x8000⟩ (by decide) rfl (packRegs_select _ _ _ _)
theorem orReg (x : Reg) (y : Reg) : Statement (.orReg x y) :=
  of_row ⟨"OR_Vx__Vy", 0xF00F, 0x8001⟩ (by decide) rfl (packRegs_select _ _ _ _)
theorem andReg (x : Reg) (y : Reg) : Statement (.andReg x y) :=
  of_row ⟨"AND_Vx__Vy", 0xF00F, 0x8002⟩ (by decide) rfl (packRegs_select _ _ _ _)
theorem xorReg (x : Reg) (y : Reg) : Statement (.xorReg x y) :=
  of_row ⟨"XOR_Vx__Vy", 0xF00F, 0x8003⟩ (by decide) rfl (packRegs_select _ _ _ _)
theorem addReg (x : Reg) (y : Reg) : Statement (.addReg x y) :=
  of_row ⟨"ADD_Vx__Vy", 0xF00F, 0x8004⟩ (by decide) rfl (packRegs_select _ _ _ _)
theorem subReg (x : Reg) (y : Reg) : Statement (.subReg x y) :=
  of_row ⟨"SUB_Vx__Vy", 0xF00F, 0x8005⟩ (by decide) rfl (packRegs_select _ _ _ _)
theorem shr (x : Reg) (y : Reg) : Statement (.shr x y) :=
  of_row ⟨"SHR_Vx____Vy", 0xF00F, 0x8006⟩ (by decide) rfl (packRegs_select _ _ _ _)
theorem subnReg (x : Reg) (y : Reg) : Statement (.subnReg x y) :=
  of_row ⟨"SUBN_Vx__Vy", 0xF00F, 0x8007⟩ (by decide) rfl (packRegs_select _ _ _ _)
theorem shl (x : Reg) (y : Reg) : Statement (.shl x y) :=
  of_row ⟨"SHL_Vx____Vy", 0xF00F, 0x800E⟩ (by decide) rfl (packRegs_select _ _ _ _)
theorem sneReg (x : Reg) (y : Reg) : Statement (.sneReg x y) :=
  of_row ⟨"SNE_Vx__Vy", 0xF00F, 0x9000⟩ (by decide) rfl (packRegs_select _ _ _ _)
theorem ldI (nnn : Addr12) : Statement (.ldI nnn) :=
  of_row ⟨"LD_I__nnn", 0xF000, 0xA000⟩ (by decide) rfl (packAddr_family _ _)
theorem jpV0 (nnn : Addr12) : Statement (.jpV0 nnn) :=
  of_row ⟨"JP_V0__nnn", 0xF000, 0xB000⟩ (by decide) rfl (packAddr_family _ _)
theorem rnd (x : Reg) (nn : Byte) : Statement (.rnd x nn) :=
  of_row ⟨"RND_Vx__nn", 0xF000, 0xC000⟩ (by decide) rfl (packImm_family _ _ _)
theorem drw (x : Reg) (y : Reg) (n : Fin 16) : Statement (.drw x y n) :=
  of_row ⟨"DRW_Vx__Vy__n", 0xF000, 0xD000⟩ (by decide) rfl (packRegs_family _ _ _ _)
theorem skp (x : Reg) : Statement (.skp x) :=
  of_row ⟨"SKP_Vx", 0xF0FF, 0xE09E⟩ (by decide) rfl (packImm_select _ _ _)
theorem sknp (x : Reg) : Statement (.sknp x) :=
  of_row ⟨"SKNP_Vx", 0xF0FF, 0xE0A1⟩ (by decide) rfl (packImm_select _ _ _)
theorem ldVxDT (x : Reg) : Statement (.ldVxDT x) :=
  of_row ⟨"LD_Vx__DT", 0xF0FF, 0xF007⟩ (by decide) rfl (packImm_select _ _ _)
theorem ldVxK (x : Reg) : Statement (.ldVxK x) :=
  of_row ⟨"LD_Vx__K", 0xF0FF, 0xF00A⟩ (by decide) rfl (packImm_select _ _ _)
theorem ldDTVx (x : Reg) : Statement (.ldDTVx x) :=
  of_row ⟨"LD_DT__Vx", 0xF0FF, 0xF015⟩ (by decide) rfl (packImm_select _ _ _)
theorem ldSTVx (x : Reg) : Statement (.ldSTVx x) :=
  of_row ⟨"LD_ST__Vx", 0xF0FF, 0xF018⟩ (by decide) rfl (packImm_select _ _ _)
theorem addI (x : Reg) : Statement (.addI x) :=
  of_row ⟨"ADD_I__Vx", 0xF0FF, 0xF01E⟩ (by decide) rfl (packImm_select _ _ _)
theorem ldF (x : Reg) : Statement (.ldF x) :=
  of_row ⟨"LD_F__Vx", 0xF0FF, 0xF029⟩ (by decide) rfl (packImm_select _ _ _)
theorem ldB (x : Reg) : Statement (.ldB x) :=
  of_row ⟨"LD_B__Vx", 0xF0FF, 0xF033⟩ (by decide) rfl (packImm_select _ _ _)
theorem storeRegs (x : Reg) : Statement (.storeRegs x) :=
  of_row ⟨"LD__I___Vx", 0xF0FF, 0xF055⟩ (by decide) rfl (packImm_select _ _ _)
theorem loadRegs (x : Reg) : Statement (.loadRegs x) :=
  of_row ⟨"LD_Vx___I", 0xF0FF, 0xF065⟩ (by decide) rfl (packImm_select _ _ _)

end Sys2Proof.Laws.EncodesRow
end

