-- ==== Sys2Proof/Laws/Step.lean ====
section
/-! SUPPORT. What a step can do, said once: which event it delivers, what taking it off leaves alone, and what a Step event finds. -/

namespace Sys2Proof.Machine

/-- A step whose next event is known delivers that event. -/
theorem step_of_nextEvent {s : State} {e : HostEvent} (h : s.nextEvent = e) : step s = s.takeEvent.deliver e := by
  rw [step, h]

/-- Taking an event changes only what is to come: everything else of the state is as it was. -/
theorem takeEvent_cases (s : State) :
    (∃ p, s.takeEvent = s.setPending p) ∨ s.takeEvent = s.setFreeEvents (s.freeEvents + 1) := by
  unfold State.takeEvent
  split
  · exact .inr rfl
  · exact .inl ⟨_, rfl⟩

/-- After a listed event has been taken, the rest of the list is to come. -/
theorem takeEvent_of_cons {s : State} {e : HostEvent} {rest : List HostEvent} (h : s.pending = e :: rest) :
    s.takeEvent = s.setPending rest := by
  simp [State.takeEvent, h]

/-- The first listed event is the next one. -/
theorem nextEvent_of_cons {s : State} {e : HostEvent} {rest : List HostEvent} (h : s.pending = e :: rest) :
    s.nextEvent = e := by
  simp [State.nextEvent, h]

/-- With none listed the next event is free. -/
theorem nextEvent_of_nil {s : State} (h : s.pending = []) : s.nextEvent = Config.hostEvent s.freeEvents := by
  simp [State.nextEvent, h]

/-- With none listed, taking an event counts one more free one. -/
theorem takeEvent_of_nil {s : State} (h : s.pending = []) : s.takeEvent = s.setFreeEvents (s.freeEvents + 1) := by
  simp [State.takeEvent, h]

section
variable (s : State)
@[simp] theorem takeEvent_V : s.takeEvent.V = s.V := by rcases takeEvent_cases s with ⟨_, h⟩ | h <;> rw [h] <;> rfl
@[simp] theorem takeEvent_I : s.takeEvent.I = s.I := by rcases takeEvent_cases s with ⟨_, h⟩ | h <;> rw [h] <;> rfl
@[simp] theorem takeEvent_pc : s.takeEvent.pc = s.pc := by rcases takeEvent_cases s with ⟨_, h⟩ | h <;> rw [h] <;> rfl
@[simp] theorem takeEvent_stack : s.takeEvent.stack = s.stack := by rcases takeEvent_cases s with ⟨_, h⟩ | h <;> rw [h] <;> rfl
@[simp] theorem takeEvent_mem : s.takeEvent.mem = s.mem := by rcases takeEvent_cases s with ⟨_, h⟩ | h <;> rw [h] <;> rfl
@[simp] theorem takeEvent_fb : s.takeEvent.fb = s.fb := by rcases takeEvent_cases s with ⟨_, h⟩ | h <;> rw [h] <;> rfl
@[simp] theorem takeEvent_dirty : s.takeEvent.dirty = s.dirty := by rcases takeEvent_cases s with ⟨_, h⟩ | h <;> rw [h] <;> rfl
@[simp] theorem takeEvent_key : s.takeEvent.key = s.key := by rcases takeEvent_cases s with ⟨_, h⟩ | h <;> rw [h] <;> rfl
@[simp] theorem takeEvent_latch : s.takeEvent.latch = s.latch := by rcases takeEvent_cases s with ⟨_, h⟩ | h <;> rw [h] <;> rfl
@[simp] theorem takeEvent_DT : s.takeEvent.DT = s.DT := by rcases takeEvent_cases s with ⟨_, h⟩ | h <;> rw [h] <;> rfl
@[simp] theorem takeEvent_ST : s.takeEvent.ST = s.ST := by rcases takeEvent_cases s with ⟨_, h⟩ | h <;> rw [h] <;> rfl
@[simp] theorem takeEvent_status : s.takeEvent.status = s.status := by rcases takeEvent_cases s with ⟨_, h⟩ | h <;> rw [h] <;> rfl
@[simp] theorem takeEvent_cfg : s.takeEvent.cfg = s.cfg := by rcases takeEvent_cases s with ⟨_, h⟩ | h <;> rw [h] <;> rfl
@[simp] theorem takeEvent_trace : s.takeEvent.trace = s.trace := by rcases takeEvent_cases s with ⟨_, h⟩ | h <;> rw [h] <;> rfl
@[simp] theorem takeEvent_draws : s.takeEvent.draws = s.draws := by rcases takeEvent_cases s with ⟨_, h⟩ | h <;> rw [h] <;> rfl
@[simp] theorem takeEvent_reg (r : Reg) : s.takeEvent.reg r = s.reg r := by simp [State.reg]
@[simp] theorem takeEvent_pixel (c : Fin 64) (r : Fin 32) : s.takeEvent.pixel c r = s.pixel c r := by simp [State.pixel]
@[simp] theorem takeEvent_fetchWord : s.takeEvent.fetchWord = s.fetchWord := by simp [State.fetchWord]
end
/-- What a Step event does, and when (60_exceptions.md R221, R212). -/
theorem stepEvent_cases (s : State) :
    ((s.status ≠ .running ∨ s.latch ≠ .none) ∧ s.stepEvent = .next s) ∨
    (s.status = .running ∧ s.latch = .none ∧ 0xFFE < s.pc.toNat ∧
      s.stepEvent = .next (s.fatal .fetchRange none)) ∨
    (s.status = .running ∧ s.latch = .none ∧ s.pc.toNat ≤ 0xFFE ∧
      (∃ e, decodeWord s.fetchWord = .error e) ∧
      s.stepEvent = .next (s.fatal .unknownOpcode (some s.fetchWord))) ∨
    (s.status = .running ∧ s.latch = .none ∧ s.pc.toNat ≤ 0xFFE ∧
      ∃ i, decodeWord s.fetchWord = .ok i ∧ s.stepEvent = exec i s) := by
  unfold State.stepEvent State.fetch State.fetchInstr fetchInRange
  cases hs : s.status with
  | running =>
    cases hl : s.latch with
    | none =>
      by_cases hp : s.pc.toNat + 1 ≤ 0xFFF
      · cases hd : decodeWord s.fetchWord with
        | ok i =>
          refine .inr (.inr (.inr ⟨rfl, rfl, by omega, i, rfl, ?_⟩))
          simp [hp]
        | error e =>
          refine .inr (.inr (.inl ⟨rfl, rfl, by omega, ⟨e, rfl⟩, ?_⟩))
          simp [hp]
      · exact .inr (.inl ⟨rfl, rfl, by omega, by simp [hp]⟩)
    | await x => exact .inl ⟨.inr (by simp), rfl⟩
  | halted d => exact .inl ⟨.inl (by simp), rfl⟩
  | stopped => exact .inl ⟨.inl (by simp), rfl⟩

/-- An event that arrives after the run has ended changes nothing (60_exceptions.md R215). -/
theorem deliver_of_ended {s : State} (h : s.status ≠ .running) (e : HostEvent) : s.deliver e = .next s := by
  cases e with
  | step =>
    rcases stepEvent_cases s with ⟨_, h'⟩ | ⟨h', _⟩ | ⟨h', _⟩ | ⟨h', _⟩
    · exact h'
    all_goals exact absurd h' h
  | _ =>
    simp only [State.deliver, State.tick, State.keyDown, State.keyUp, State.renderAck, State.stop]

/-- A run of k + 1 steps is one step and then a run of k. -/
theorem run_succ_of_next {s t : State} (h : step s = .next t) (k : Nat) :
    Host.Core.run Sys2Proof.core (k + 1) s = Host.Core.run Sys2Proof.core k t := by
  have h' : Sys2Proof.core.step s = .next t := h
  simp only [Host.Core.run, h']

end Sys2Proof.Machine
end

