-- ==== Sys2Proof/WellFormed.lean ====
section
/-! DEFINITION. Which instructions a configuration has. The operand types already bound every field, so the one check
left is the parameter HAS_FX33 (30_encoding.md R76, R78). -/

namespace Sys2Proof

/-- Fx33 is an instruction exactly when HAS_FX33 is true; every other row is one in every configuration. -/
def Instr.wellFormed (cfg : Config) : Instr → Bool
  | .ldB _ => cfg.hasFx33
  | _ => true

end Sys2Proof
end

