-- ==== Sys2Proof/Tests/Slice0.lean ====
section
/-! SUPPORT. Small tests of single steps. Expected values come from the spec's own examples and vectors
(95_test_vectors.md, cited by id) or from its encodings; and for every obligation with hypotheses a witness that they can
be met. -/

namespace Sys2Proof.Tests

open Sys2Proof.Machine

/-- The reset state changed by `f`, with the word `w` where the next step fetches it. -/
def probe (w : Nat) (f : State → State) : State := (f State.reset).withFetchWord 16 w

/-- What `f` reads of the state after one step. -/
def after {α : Type} (s : State) (f : State → α) : Option α :=
  match step s with
  | .next t => some (f t)
  | _ => none

/-- The status of a machine halted at 0x200. -/
def haltedAt200 (r : FatalReason) (op : Word) : Option Status := some (.halted ⟨r, 0x200, some op⟩)

/-- A state with one byte written. -/
def poke (s : State) (a : Nat) (v : Byte) : State := s.setMem (s.mem.write a v)

/-! ### Well-formedness -/

theorem test_fx33_is_no_instruction_without_parameter :
    Instr.wellFormed { Config.spec with hasFx33 := false } (.ldB 3) = false := by decide

theorem test_fx33_is_an_instruction_with_parameter : Instr.wellFormed Config.spec (.ldB 3) = true := by decide

/-! ### Decoding: words written out nibble by nibble from R75 -/

theorem test_decode_display :
    decodeWord 0x00E0#16 = .ok .cls ∧ decodeWord 0xD125#16 = .ok (.drw 1 2 5) := by decide

theorem test_decode_control :
    decodeWord 0x00EE#16 = .ok .ret ∧ decodeWord 0x1234#16 = .ok (.jp 0x234) ∧
    decodeWord 0x2ABC#16 = .ok (.call 0xABC) ∧ decodeWord 0xB300#16 = .ok (.jpV0 0x300) := by decide

theorem test_decode_skips :
    decodeWord 0x3342#16 = .ok (.seImm 3 0x42) ∧ decodeWord 0x4F99#16 = .ok (.sneImm 15 0x99) ∧
    decodeWord 0x5120#16 = .ok (.seReg 1 2) ∧ decodeWord 0x9AB0#16 = .ok (.sneReg 10 11) := by decide

theorem test_decode_immediates :
    decodeWord 0x61AB#16 = .ok (.ldImm 1 0xAB) ∧ decodeWord 0x71FF#16 = .ok (.addImm 1 0xFF) ∧
    decodeWord 0xC10F#16 = .ok (.rnd 1 0x0F) := by decide

theorem test_decode_registers :
    decodeWord 0x8120#16 = .ok (.ldReg 1 2) ∧ decodeWord 0x8121#16 = .ok (.orReg 1 2) ∧
    decodeWord 0x8122#16 = .ok (.andReg 1 2) ∧ decodeWord 0x8123#16 = .ok (.xorReg 1 2) ∧
    decodeWord 0x8124#16 = .ok (.addReg 1 2) ∧ decodeWord 0x8125#16 = .ok (.subReg 1 2) ∧
    decodeWord 0x8126#16 = .ok (.shr 1 2) ∧ decodeWord 0x8127#16 = .ok (.subnReg 1 2) ∧
    decodeWord 0x812E#16 = .ok (.shl 1 2) := by decide

theorem test_decode_keys_and_timers :
    decodeWord 0xE29E#16 = .ok (.skp 2) ∧ decodeWord 0xE2A1#16 = .ok (.sknp 2) ∧
    decodeWord 0xF307#16 = .ok (.ldVxDT 3) ∧ decodeWord 0xF50A#16 = .ok (.ldVxK 5) ∧
    decodeWord 0xF415#16 = .ok (.ldDTVx 4) ∧ decodeWord 0xF418#16 = .ok (.ldSTVx 4) := by decide

theorem test_decode_index :
    decodeWord 0xA123#16 = .ok (.ldI 0x123) ∧ decodeWord 0xF21E#16 = .ok (.addI 2) ∧
    decodeWord 0xF329#16 = .ok (.ldF 3) ∧ decodeWord 0xF133#16 = .ok (.ldB 1) ∧
    decodeWord 0xF255#16 = .ok (.storeRegs 2) ∧ decodeWord 0xFF65#16 = .ok (.loadRegs 15) := by decide

/-- V-U1, V-U3, V-U6, V-U7, V-U9, V-C16, V-C17. -/
theorem test_decode_unknown :
    decodeWord 0x0000#16 = .error (.unknownOpcode 0x0000) ∧ decodeWord 0x00E1#16 = .error (.unknownOpcode 0x00E1) ∧
    decodeWord 0x800D#16 = .error (.unknownOpcode 0x800D) ∧ decodeWord 0xE000#16 = .error (.unknownOpcode 0xE000) ∧
    decodeWord 0xF030#16 = .error (.unknownOpcode 0xF030) ∧ decodeWord 0x5121#16 = .error (.unknownOpcode 0x5121) ∧
    decodeWord 0x9121#16 = .error (.unknownOpcode 0x9121) := by decide

/-- R71: the byte at the lower address is bits 15:8. -/
theorem test_decode_is_big_endian : decode [0x6A, 0x0F, 0x77] = .ok (.ldImm 10 0x0F, [0x77]) := by decide

theorem test_decode_truncated : decode [0x6A] = .error .truncated := by decide

/-- R75: no two rows of the opcode map overlap: they differ in a bit that both masks fix. -/
theorem test_opcode_rows_do_not_overlap :
    opcodeMap.Pairwise (fun a b => a.pattern &&& (a.mask &&& b.mask) ≠ b.pattern &&& (a.mask &&& b.mask)) := by decide

/-! ### Display -/

/-- V-D1. -/
theorem test_cls : after (probe 0x00E0 fun s => s.setFb (Vector.replicate 32 0xFF#64))
    (fun t => (t.fb, t.dirty, t.pc)) = some (Vector.replicate 32 0#64, true, 0x202) := by decide

/-- V-D4: wraps at both edges. -/
theorem test_drw_wraps :
    after (probe 0xD011 fun s => (((poke s 0x300 0xF0).setI 0x300).setReg 0 62).setReg 1 31)
      (fun t => (t.pixel 62 31, t.pixel 63 31, t.pixel 0 31, t.pixel 1 31, t.pixel 2 31, t.reg 15)) =
    some (true, true, true, true, false, 0) := by decide

/-- V-D7: a collision, with the other pixel set. -/
theorem test_drw_collision :
    after (probe 0xD231 fun s => ((poke s 0x300 0xC0).setI 0x300).setFb (s.fb.set 0 1#64))
      (fun t => (t.pixel 0 0, t.pixel 1 0, t.reg 15, t.dirty)) = some (false, true, 1, true) := by decide

/-! ### Control flow -/

/-- R110's example. -/
theorem test_ret : after (probe 0x00EE fun s => s.setStack [0x204, 0x300])
    (fun t => (t.stack, t.pc)) = some ([0x300], 0x206) := by decide

/-- V-C5, at 0x200. -/
theorem test_ret_underflow : after (probe 0x00EE id) (fun t => t.status) = haltedAt200 .stackUnderflow 0x00EE := by decide

/-- V-C1. -/
theorem test_jp : after (probe 0x1345 id) (fun t => t.pc) = some 0x345 := by decide

/-- V-C3. -/
theorem test_call : after (probe 0x2400 id) (fun t => (t.stack, t.pc)) = some ([0x200], 0x400) := by decide

/-- V-C6, at 0x200. -/
theorem test_call_overflow : after (probe 0x2500 fun s => s.setStack (List.replicate 16 0x300))
    (fun t => t.status) = haltedAt200 .stackOverflow 0x2500 := by decide

/-- V-C8, V-C9. -/
theorem test_seImm : after (probe 0x3342 fun s => s.setReg 3 0x42) (fun t => t.pc) = some 0x204 ∧
    after (probe 0x3343 fun s => s.setReg 3 0x42) (fun t => t.pc) = some 0x202 := by decide

/-- V-C10, V-C11. -/
theorem test_sneImm : after (probe 0x4342 fun s => s.setReg 3 0x42) (fun t => t.pc) = some 0x202 ∧
    after (probe 0x4343 fun s => s.setReg 3 0x42) (fun t => t.pc) = some 0x204 := by decide

/-- V-C12, V-C13. -/
theorem test_seReg : after (probe 0x5120 fun s => (s.setReg 1 7).setReg 2 7) (fun t => t.pc) = some 0x204 ∧
    after (probe 0x5120 fun s => (s.setReg 1 7).setReg 2 8) (fun t => t.pc) = some 0x202 := by decide

/-- V-C14, V-C15. -/
theorem test_sneReg : after (probe 0x9120 fun s => (s.setReg 1 7).setReg 2 8) (fun t => t.pc) = some 0x204 ∧
    after (probe 0x9120 fun s => (s.setReg 1 7).setReg 2 7) (fun t => t.pc) = some 0x202 := by decide

/-- V-C19: no modulo. -/
theorem test_jpV0 : after (probe 0xBFFF fun s => s.setReg 0 0xFF) (fun t => t.pc) = some 0x10FE := by decide

/-- V-C22: a fetch at 0xFFF is out of range. -/
theorem test_fetch_range : after ((State.reset.setPc 0xFFF).setPending [.step]) (fun t => t.status) =
    some (.halted ⟨.fetchRange, 0xFFF, none⟩) := by decide

/-- V-C23: an odd pc is legal. -/
theorem test_odd_pc : after ((State.reset.setPc 0x201).withFetchWord 16 0x6007) (fun t => (t.reg 0, t.pc)) =
    some (7, 0x203) := by decide

/-! ### Arithmetic -/

/-- V-A1. -/
theorem test_ldImm : after (probe 0x61AB id) (fun t => (t.reg 1, t.pc)) = some (0xAB, 0x202) := by decide

/-- V-A2. -/
theorem test_addImm_leaves_flag : after (probe 0x71FF fun s => (s.setReg 1 1).setReg 15 0x55)
    (fun t => (t.reg 1, t.reg 15)) = some (0x00, 0x55) := by decide

/-- V-A38. -/
theorem test_addImm_to_flag : after (probe 0x7F02 fun s => s.setReg 15 0xFF) (fun t => t.reg 15) = some 1 := by decide

/-- V-A4. -/
theorem test_ldReg : after (probe 0x8120 fun s => (s.setReg 1 0x11).setReg 2 0x22)
    (fun t => (t.reg 1, t.reg 2)) = some (0x22, 0x22) := by decide

/-- V-A5. -/
theorem test_orReg : after (probe 0x8121 fun s => ((s.setReg 1 0xF0).setReg 2 0x0F).setReg 15 0x55)
    (fun t => (t.reg 1, t.reg 15)) = some (0xFF, 0x55) := by decide

/-- V-A6. -/
theorem test_andReg : after (probe 0x8122 fun s => ((s.setReg 1 0xF0).setReg 2 0x3C).setReg 15 0x55)
    (fun t => (t.reg 1, t.reg 15)) = some (0x30, 0x55) := by decide

/-- V-A7. -/
theorem test_xorReg : after (probe 0x8123 fun s => ((s.setReg 1 0xFF).setReg 2 0x0F).setReg 15 0x55)
    (fun t => (t.reg 1, t.reg 15)) = some (0xF0, 0x55) := by decide

/-- V-A11. -/
theorem test_addReg_carry : after (probe 0x8124 fun s => (s.setReg 1 0xC8).setReg 2 0x64)
    (fun t => (t.reg 1, t.reg 15)) = some (0x2C, 1) := by decide

/-- V-A34: the destination is VF, so VF ends holding the flag. -/
theorem test_addReg_to_flag : after (probe 0x8F14 fun s => (s.setReg 15 1).setReg 1 1)
    (fun t => t.reg 15) = some 0 := by decide

/-- V-A13. -/
theorem test_subReg_borrow : after (probe 0x8125 fun s => (s.setReg 1 5).setReg 2 7)
    (fun t => (t.reg 1, t.reg 15)) = some (0xFE, 0) := by decide

/-- V-A14. -/
theorem test_subReg_equal : after (probe 0x8125 fun s => (s.setReg 1 5).setReg 2 5)
    (fun t => (t.reg 1, t.reg 15)) = some (0x00, 1) := by decide

/-- V-A16. -/
theorem test_subnReg : after (probe 0x8127 fun s => (s.setReg 1 5).setReg 2 7)
    (fun t => (t.reg 1, t.reg 15)) = some (0x02, 1) := by decide

/-- V-A19. -/
theorem test_shr : after (probe 0x8126 fun s => (s.setReg 1 5).setReg 2 0x80)
    (fun t => (t.reg 1, t.reg 15)) = some (0x02, 1) := by decide

/-- V-A25: with SHIFT_FROM_VY the operand is Vy. -/
theorem test_shr_from_vy :
    after (probe 0x8126 fun s => { s.setReg 2 5 with cfg := { Config.spec with shiftFromVy := true } })
      (fun t => (t.reg 1, t.reg 2, t.reg 15)) = some (0x02, 5, 1) := by decide

/-- V-A22. -/
theorem test_shl : after (probe 0x812E fun s => s.setReg 1 0x81)
    (fun t => (t.reg 1, t.reg 15)) = some (0x02, 1) := by decide

/-- V-A26. -/
theorem test_shl_from_vy :
    after (probe 0x812E fun s => { s.setReg 2 0x81 with cfg := { Config.spec with shiftFromVy := true } })
      (fun t => (t.reg 1, t.reg 15)) = some (0x02, 1) := by decide

/-- V-A29: a mask of 0 gives 0 whatever the free byte is; VF is left. -/
theorem test_rnd_masked : after (probe 0xC100 fun s => s.setReg 15 0x55) (fun t => (t.reg 1, t.reg 15, t.draws)) =
    some (0, 0x55, 1) := by
  have h : ∀ b : Byte, b &&& 0#8 = 0#8 := by decide
  show some (Config.draw8 0 &&& 0#8, (0x55 : Byte), 1) = some (0#8, 0x55, 1)
  rw [h]

/-! ### Keys and timers -/

/-- V-K1, V-K2. -/
theorem test_skp : after (probe 0xE29E fun s => (s.setReg 2 3).setKey 3 true) (fun t => t.pc) = some 0x204 ∧
    after (probe 0xE29E fun s => s.setReg 2 3) (fun t => t.pc) = some 0x202 := by decide

/-- V-K5, at 0x200. -/
theorem test_skp_key_range : after (probe 0xE09E fun s => s.setReg 0 0x10) (fun t => t.status) =
    haltedAt200 .keyRange 0xE09E := by decide

/-- V-K3, V-K4. -/
theorem test_sknp : after (probe 0xE2A1 fun s => (s.setReg 2 3).setKey 3 true) (fun t => t.pc) = some 0x202 ∧
    after (probe 0xE2A1 fun s => s.setReg 2 3) (fun t => t.pc) = some 0x204 := by decide

/-- V-K8. -/
theorem test_ldVxDT : after (probe 0xF307 fun s => s.setDT 0x2A) (fun t => (t.reg 3, t.DT)) = some (0x2A, 0x2A) := by
  decide

/-- V-K9. -/
theorem test_ldDTVx : after (probe 0xF415 fun s => s.setReg 4 5) (fun t => (t.DT, t.pc)) = some (5, 0x202) := by decide

/-- V-K10: no beep at the write. -/
theorem test_ldSTVx : after (probe 0xF418 fun s => s.setReg 4 1) (fun t => (t.ST, t.trace)) = some (1, []) := by decide

/-- V-K12. -/
theorem test_ldVxK : after (probe 0xF50A id) (fun t => (t.latch, t.pc, t.reg 5)) = some (.await 5, 0x200, 0) := by decide

/-! ### Address register and memory -/

/-- V-I2. -/
theorem test_ldI : after (probe 0xAFFF id) (fun t => (t.I, t.pc)) = some (0xFFF, 0x202) := by decide

/-- V-I4. -/
theorem test_addI_wraps : after (probe 0xF21E fun s => (s.setI 0xFFF).setReg 2 2) (fun t => (t.I, t.reg 15)) =
    some (0x001, 1) := by decide

/-- V-I7: the addend is VF's old value. -/
theorem test_addI_from_flag : after (probe 0xFF1E fun s => (s.setI 0x100).setReg 15 5) (fun t => (t.I, t.reg 15)) =
    some (0x105, 0) := by decide

/-- V-I12: no mask. -/
theorem test_ldF : after (probe 0xF329 fun s => s.setReg 3 0xFF) (fun t => t.I) = some 0x4FB := by decide

/-- V-I15. -/
theorem test_ldB : after (probe 0xF133 fun s => (s.setReg 1 0xFF).setI 0x300)
    (fun t => (t.mem.readBytes 0x300 3, t.I)) = some ([2, 5, 5], 0x300) := by decide

/-- V-I19. -/
theorem test_ldB_absent :
    after (probe 0xF133 fun s => { s.setI 0xFFE with cfg := { Config.spec with hasFx33 := false } })
      (fun t => t.status) = haltedAt200 .unknownOpcode 0xF133 := by decide

/-- V-I23: the last address is 0xFFF. -/
theorem test_storeRegs_top : after (probe 0xF155 fun s => ((s.setReg 0 0x11).setReg 1 0x22).setI 0xFFE)
    (fun t => (t.mem.readBytes 0xFFE 2, t.I)) = some ([0x11, 0x22], 0xFFE) := by decide

/-- V-I24: no partial write. -/
theorem test_storeRegs_out_of_range : after (probe 0xF255 fun s => (s.setReg 0 0x11).setI 0xFFE)
    (fun t => (some t.status, t.mem.read 0xFFE)) = some (haltedAt200 .memRange 0xF255, 0) := by decide

/-- V-I27: the first 16 bytes of the font. -/
theorem test_loadRegs_font : after (probe 0xFF65 id) (fun t => t.V.toList) =
    some [0xF0, 0x90, 0x90, 0x90, 0xF0, 0x20, 0x60, 0x20, 0x20, 0x70, 0xF0, 0x10, 0xF0, 0x80, 0xF0, 0xF0] := by decide

/-- V-I25. -/
theorem test_loadRegs_out_of_range : after (probe 0xFF65 fun s => (s.setI 0xFF1).setReg 3 9)
    (fun t => (some t.status, t.reg 3)) = some (haltedAt200 .memRange 0xFF65, 9) := by decide

/-! ### Host events -/

/-- V-T1 and V-T5: the beep comes with ST = 1 alone. -/
theorem test_tick_beeps :
    after (((State.reset.setDT 5).setST 1).setPending [.tick]) (fun t => (t.DT, t.ST, t.trace)) = some (4, 0, [.beep]) ∧
    after ((State.reset.setDT 1).setPending [.tick]) (fun t => (t.DT, t.ST, t.trace)) = some (0, 0, []) := by decide

/-- V-K15. -/
theorem test_keyDown_resolves :
    after (((State.reset.setPc 0x300).setLatch (.await 5)).setPending [.keyDown 0xA])
      (fun t => (t.reg 5, t.latch, t.pc, t.keyPressed 0xA)) = some (0x0A, .none, 0x302, true) := by decide

/-- V-K14: a release does not resolve. -/
theorem test_keyUp_does_not_resolve :
    after (((State.reset.setKey 0xA true).setLatch (.await 5)).setPending [.keyUp 0xA])
      (fun t => (t.keyPressed 0xA, t.latch)) = some (false, .await 5) := by decide

/-- V-E1, V-E4. -/
theorem test_ack_and_stop :
    after ((State.reset.setDirty true).setPending [.renderAck]) (fun t => t.dirty) = some false ∧
    after ((State.reset.setLatch (.await 3)).setPending [.stop]) (fun t => (t.status, t.latch)) =
      some (.stopped, .await 3) := by decide

/-- V-E5. -/
theorem test_tick_after_halt :
    after (((State.reset.setST 1).setStatus (.halted ⟨.unknownOpcode, 0x200, some 0⟩)).setPending [.tick])
      (fun t => (t.ST, t.trace)) = some (1, []) := by decide

/-- V-R5: a one-byte ROM. -/
theorem test_rom_byte_is_loaded : (bootByte Config.spec [0x12] 0x200, bootByte Config.spec [0x12] 0x201) = (0x12, 0) := by
  decide

/-- V-R4. -/
theorem test_rom_too_large : construct Config.spec (List.replicate 3585 0) = .fault .romTooLarge := by
  have h : romMax < (List.replicate 3585 (0 : Byte)).length := by rw [List.length_replicate]; decide
  exact if_pos h

end Sys2Proof.Tests
end

