-- ==== Sys2Proof/Tests/Witnesses.lean ====
section
/-! SUPPORT. For every obligation with hypotheses, a concrete state and operands that meet all of them together; where a
statement has clauses over one input, a witness for each, at a boundary value. -/

namespace Sys2Proof.Tests

open Sys2Proof.Machine

/-- Whether a result is a next state with a property. -/
def nextWith (r : Result) (p : State → Bool) : Bool :=
  match r with
  | .next t => p t
  | _ => false

theorem witness_EncodeOfDecodeIsIdentity : decodeWord 0xFF65#16 = .ok (.loadRegs 15) := by decide

theorem witness_DecoderFollowsOpcodeMap :
    (∃ row ∈ opcodeMap, row.accepts 0x8FFE#16 = true) ∧ (∀ row ∈ opcodeMap, row.accepts 0x8FFF#16 = false) := by decide

/-- One word for each clause, with the largest operands. -/
theorem witness_OperandsAreTheFieldsOfTheWord :
    decodeWord 0xAFFF#16 = .ok (.ldI 0xFFF) ∧ decodeWord 0xCEFF#16 = .ok (.rnd 14 0xFF) ∧
    decodeWord 0x9EF0#16 = .ok (.sneReg 14 15) ∧ decodeWord 0xDEFF#16 = .ok (.drw 14 15 15) ∧
    decodeWord 0xFF1E#16 = .ok (.addI 15) := by decide

/-- pc = 0xFFE is the last address a word can be fetched from. -/
def lastFetch : State := (State.reset.setPc 0xFFE).withFetchWord 16 0x600A

/-- The reset state with a Step coming. -/
def stepping : State := State.reset.setPending [.step]

/-- Both clauses: a listed event and none. -/
theorem witness_StepDeliversTheNextEvent :
    (stepping.setPending [.keyDown 15, .stop]).pending = .keyDown 15 :: [.stop] ∧ State.reset.pending = [] := by decide

theorem witness_WithoutStepsNothingExecutes :
    State.reset.latch = .none ∧
    (∀ j, j < 3 → (State.reset.setPending [.tick, .keyDown 15, .renderAck]).eventAt j ≠ .step) := by decide

theorem witness_StepRunsDecodedInstruction :
    lastFetch.nextEvent = .step ∧
    lastFetch.status = .running ∧ lastFetch.latch = .none ∧ lastFetch.pc.toNat ≤ 0xFFE ∧
    decode [lastFetch.mem.read lastFetch.pc.toNat, lastFetch.mem.read (lastFetch.pc.toNat + 1)] =
      .ok (.ldImm 0 0x0A, []) := by decide

theorem witness_StepEventFollowsItsRule_stopped :
    (stepping.setStatus .stopped).nextEvent = .step ∧ (stepping.setStatus .stopped).status ≠ .running := by decide

theorem witness_StepEventFollowsItsRule_waiting :
    (stepping.setLatch (.await 15)).nextEvent = .step ∧ (stepping.setLatch (.await 15)).status = .running ∧
    (stepping.setLatch (.await 15)).latch ≠ .none := by decide

theorem witness_StepEventFollowsItsRule_range :
    (stepping.setPc 0xFFF).nextEvent = .step ∧ (stepping.setPc 0xFFF).status = .running ∧
    (stepping.setPc 0xFFF).latch = .none ∧ 0xFFF < (stepping.setPc 0xFFF).pc.toNat + 1 := by decide

theorem witness_StepEventFollowsItsRule_unknown :
    stepping.nextEvent = .step ∧ stepping.pc.toNat + 1 ≤ 0xFFF ∧
    (0x0000#16).toNat = (stepping.mem.read 0x200).toNat * 256 + (stepping.mem.read 0x201).toNat ∧
    (∀ row ∈ opcodeMap, row.accepts 0x0000#16 = false) := by decide

theorem witness_StepEventFollowsItsRule_instruction :
    lastFetch.nextEvent = .step ∧ lastFetch.pc.toNat + 1 ≤ 0xFFF ∧
    (0x600A#16).toNat = (lastFetch.mem.read 0xFFE).toNat * 256 + (lastFetch.mem.read 0xFFF).toNat ∧
    (∃ row ∈ opcodeMap, row.accepts 0x600A#16 = true) := by decide

theorem witness_StepEventFollowsItsRule_fatal :
    nextWith (exec .ret State.reset) (fun t => t.status == .halted ⟨.stackUnderflow, 0x200, some 0x00EE⟩) = true := by decide

/-- A sound state on the bounds of the invariant: I = 0xFFF, a full stack of 0xFFE, a wait at pc = 0xFFE. -/
def edgeState : State := ((State.reset.setI 0xFFF).setStack (List.replicate 16 0xFFE)).setPc 0xFFE

theorem edgeState_stack : ∀ a ∈ edgeState.stack, a.toNat ≤ 0xFFE := by
  have h : edgeState.stack = List.replicate 16 0xFFE := rfl
  rw [h]
  intro a ha
  rw [List.eq_of_mem_replicate ha]
  decide

theorem witness_EveryStepKeepsTheStateSound :
    edgeState.Inv ∧ (edgeState.setLatch (.await 15)).Inv ∧ nextWith (step (edgeState.setPending [.step])) (fun _ => true) = true :=
  ⟨⟨by decide, by decide, by decide, by decide, edgeState_stack, by decide⟩,
    ⟨by decide, by decide, by decide, by decide, edgeState_stack, by decide⟩, by decide⟩

theorem witness_ConstructedStateIsSound : ∃ s, construct Config.spec [0x12] = .next s :=
  ⟨constructed Config.spec [0x12], if_neg (by decide)⟩

theorem witness_FatalStepChangesOnlyStatus :
    State.reset.status = .running ∧
    nextWith (step stepping) (fun t => t.status == .halted ⟨.unknownOpcode, 0x200, some 0x0000⟩) = true ∧
    nextWith (step (stepping.setPc 0xFFF)) (fun t => t.status == .halted ⟨.fetchRange, 0xFFF, none⟩) = true := by decide

theorem witness_EndedRunsNeverChange :
    (State.reset.setStatus .stopped).status ≠ .running ∧
    (State.reset.setStatus (.halted ⟨.memRange, 0x200, some 0xF055⟩)).status ≠ .running := by decide

theorem witness_KeyWaitStartsOnlyAtFx0A :
    (probe 0xFF0A id).latch = .none ∧ nextWith (step (probe 0xFF0A id)) (fun t => t.latch == .await 15) = true := by decide

/-- A key wait of VF at pc = 0xFFE, with a press of key 0xF coming. -/
def waiting : State := ((State.reset.setPc 0xFFE).setLatch (.await 15)).setPending [.keyDown 15]

theorem witness_KeyWaitEndsOnlyAtKeyPress :
    waiting.latch = .await 15 ∧ nextWith (step waiting) (fun t => t.latch != .await 15) = true := by decide

/-- Every clause of the statement: an instruction that does change the part. -/
theorem witness_InstructionsWriteOnlyTheirState :
    nextWith (exec (.ldI 0xFFF) State.reset) (fun t => t.I != State.reset.I) = true ∧
    nextWith (exec (.call 0xFFF) State.reset) (fun t => t.stack != State.reset.stack) = true ∧
    nextWith (exec (.storeRegs 0) (State.reset.setReg 0 1)) (fun t => t.mem.read 0 != 0xF0) = true ∧
    nextWith (exec (.drw 0 0 1) State.reset) (fun t => t.fb != State.reset.fb) = true ∧
    nextWith (exec (.ldVxK 15) State.reset) (fun t => t.latch != .none) = true ∧
    nextWith (exec (.ldDTVx 15) (State.reset.setReg 15 1)) (fun t => t.DT != 0) = true ∧
    nextWith (exec (.ldSTVx 15) (State.reset.setReg 15 1)) (fun t => t.ST != 0) = true ∧
    nextWith (exec (.rnd 15 0xFF) State.reset) (fun t => t.draws != 0) = true := by decide

theorem witness_FlagRegisterHasOnlyItsWriters :
    nextWith (exec (.subReg 0 1) State.reset) (fun t => t.reg 15 != State.reset.reg 15) = true := by decide

theorem witness_HostEventsLeaveProgramStateAlone :
    waiting.nextEvent ≠ .step ∧
    nextWith (step waiting) (fun t => t.pc != waiting.pc) = true ∧
    nextWith (step (State.reset.setPending [.tick])) (fun t => t.pc == 0x200) = true := by decide

theorem witness_DirtyFlagIsNeverRead :
    nextWith (step stepping) (fun _ => true) = true ∧
    nextWith (step ((State.reset.setDirty true).setPending [.renderAck])) (fun t => !t.dirty) = true := by decide

theorem witness_FramebufferIsReadOnlyByDraw :
    (∀ x y n, Instr.loadRegs 15 ≠ .drw x y n) ∧ Instr.loadRegs 15 ≠ .cls ∧
    nextWith (exec (.loadRegs 15) State.reset) (fun _ => true) = true ∧
    (∀ x y n, Instr.cls ≠ .drw x y n) ∧ nextWith (exec .cls State.reset) (fun _ => true) = true := by
  refine ⟨fun _ _ _ h => ?_, ?_, ?_, fun _ _ _ h => ?_, ?_⟩
  · cases h
  · decide
  · decide
  · cases h
  · decide

/-- The last byte of the sprite at 0xFFF; and no rows at all, where I is not checked. -/
theorem witness_DrawInvertsPixelsUnderSprite :
    (∀ j, j < (4 : Fin 16).val → (State.reset.setI 0xFFC).I.toNat + j ≤ 0xFFF) ∧
    (∀ j, j < (0 : Fin 16).val → (State.reset.setI 0xFFFF).I.toNat + j ≤ 0xFFF) := by decide

/-- Both VF clauses: a blank screen gives 0, the same sprite again gives 1 (V-D2, V-D3); a pixel under the sprite and one
not. -/
theorem witness_DrawInvertsPixelsUnderSprite_clauses :
    nextWith (exec (.drw 0 1 5) State.reset) (fun t => t.reg 15 == 0 && t.pixel 0 0 && !t.pixel 4 0 &&
      nextWith (exec (.drw 0 1 5) t) (fun u => u.reg 15 == 1 && u.fb == State.reset.fb)) = true := by decide

theorem witness_DrawingTwiceRestoresFramebuffer :
    (14 : Reg) ≠ 15 ∧ (∀ j, j < (15 : Fin 16).val → (State.reset.setI 0xFF1).I.toNat + j ≤ 0xFFF) ∧
    nextWith (exec (.drw 14 14 15) State.reset) (fun t => t.pixel 0 0) = true ∧
    nextWith (exec (.drw 14 14 0) State.reset) (fun t => t.fb == State.reset.fb) = true := by decide

/-- Each form with its last address 0x1000, the first out of range. -/
theorem witness_OutOfRangeAccessHaltsAndWritesNothing :
    (∃ k, k < (15 : Fin 16).val ∧ 0xFFF < (State.reset.setI 0xFF2).I.toNat + k) ∧
    ((State.reset.setI 0xFFE).cfg.hasFx33 = true ∧ ∃ k, k < 3 ∧ 0xFFF < (State.reset.setI 0xFFE).I.toNat + k) ∧
    (∃ k, k < (0 : Reg).val + 1 ∧ 0xFFF < (State.reset.setI 0x1000).I.toNat + k) ∧
    (∃ k, k < (15 : Reg).val + 1 ∧ 0xFFF < (State.reset.setI 0xFF1).I.toNat + k) :=
  ⟨⟨14, by decide⟩, ⟨by decide, 2, by decide⟩, ⟨0, by decide⟩, ⟨15, by decide⟩⟩

theorem witness_ReturnContinuesAfterTheCall :
    (State.reset.setStack [0xFFE]).stack = 0xFFE :: [] ∧ State.reset.stack = [] := by decide

/-- nnn = 0xFFF, and the state after that jump is running with a Step coming. -/
theorem witness_JumpSetsPc :
    nextWith (exec (.jp 0xFFF) stepping) (fun t => t.status == .running && t.latch == .none && t.nextEvent == .step &&
      t.pc == 0xFFF) = true := by decide

/-- 15 entries leave room for a call, 16 do not. -/
theorem witness_CallPushesItsAddress :
    (State.reset.setStack (List.replicate 15 0x300)).stack.length < State.reset.cfg.stackDepth ∧
    (State.reset.setStack (List.replicate 16 0x300)).stack.length = State.reset.cfg.stackDepth := by decide

theorem witness_CallThenReturnRoundTrip :
    (State.reset.setStack (List.replicate 15 0x300)).stack.length < State.reset.cfg.stackDepth ∧
    nextWith (exec (.call 0x400) State.reset) (fun t => t.stack == [0x200]) = true := by decide

/-- Both outcomes of each skip. -/
theorem witness_SkipsFollowTheirCondition :
    State.reset.reg 15 = (0x00 : Byte) ∧ State.reset.reg 15 ≠ (0xFF : Byte) ∧ State.reset.reg 0 = State.reset.reg 15 ∧
    (State.reset.setReg 15 1).reg 0 ≠ (State.reset.setReg 15 1).reg 15 := by decide

/-- The least sum above 0xFFE. -/
theorem witness_ComputedJumpAddsV0 :
    0xFFE < (State.reset.reg 0).toNat + (0xFFF#12).toNat ∧
    nextWith (exec (.jpV0 0xFFF) stepping) (fun t => t.status == .running && t.latch == .none && t.nextEvent == .step) =
      true := by decide

/-- x ≠ 15 at its last value, and both values of the carry: 255 and 256. -/
theorem witness_AddRegistersSetsCarry :
    (14 : Reg) ≠ 15 ∧ ¬ (255 + (0#8).toNat > 255) ∧ (255#8).toNat + (1#8).toNat > 255 := by decide

/-- x ≠ 15 at its last value, and both values of the flag: equal operands and the least borrow. -/
theorem witness_SubtractionsSetNoBorrow : (14 : Reg) ≠ 15 ∧ (5#8).toNat ≥ (5#8).toNat ∧ ¬ ((5#8).toNat ≥ (6#8).toNat) := by
  decide

/-- Both values of SHIFT_FROM_VY give the operand. -/
theorem witness_ShiftsMoveOneBitIntoFlag :
    (0x81 : Byte) = (if (State.reset.setReg 14 0x81).cfg.shiftFromVy = true then (State.reset.setReg 14 0x81).reg 2
      else (State.reset.setReg 14 0x81).reg 14) ∧ (14 : Reg) ≠ 15 ∧
    ({ Config.spec with shiftFromVy := true } : Config).shiftFromVy = true := by decide

/-- A bit outside the mask. -/
theorem witness_RandomByteIsMasked : (0x7F#8).getLsbD 7 = false := by decide

/-- The last key code, and the first value that is none. -/
theorem witness_KeySkipsSampleTheKey :
    ((State.reset.setReg 0 0x0F).reg 0).toNat = (15 : Key).val ∧ 0xF < ((State.reset.setReg 0 0x10).reg 0).toNat := by
  decide

theorem witness_WaitKeySetsLatchAndKeepsPc :
    nextWith (exec (.ldVxK 15) stepping) (fun t => t.nextEvent == .step) = true := by decide

/-- The two clauses of Fx1E's flag: the sums 0xFFF and 0x1000. -/
theorem witness_AddToIndexWrapsAndFlags :
    ¬ ((0xFFF#16).toNat + (0#8).toNat > 0xFFF) ∧ (0xFFF#16).toNat + (1#8).toNat > 0xFFF := by decide

/-- I = 0xFFD, the last place for three digits; and a configuration without Fx33. -/
theorem witness_DecimalStoreWritesThreeDigits :
    (State.reset.setI 0xFFD).cfg.hasFx33 = true ∧ (State.reset.setI 0xFFD).mem.wf = true ∧
    (State.reset.setI 0xFFD).I.toNat + 2 ≤ 0xFFF ∧
    ({ State.reset with cfg := { Config.spec with hasFx33 := false } } : State).cfg.hasFx33 = false := by decide

theorem witness_RegisterStoreWritesMemory :
    (State.reset.setI 0xFF0).mem.wf = true ∧ (State.reset.setI 0xFF0).I.toNat + (15 : Reg).val ≤ 0xFFF ∧
    (15 : Reg) ≤ 15 ∧ 0xFEF < (State.reset.setI 0xFF0).I.toNat ∧ (State.reset.setI 0xFF0).I.toNat + (15 : Reg).val < 0x1000 := by
  decide

theorem witness_RegisterLoadReadsMemory : (State.reset.setI 0xFF0).I.toNat + (15 : Reg).val ≤ 0xFFF := by decide

/-- The state after a store serves as the later state. -/
theorem witness_StoreThenLoadRestoresRegisters :
    State.reset.mem.wf = true ∧ State.reset.I.toNat + (15 : Reg).val ≤ 0xFFF ∧
    nextWith (exec (.storeRegs 15) State.reset) (fun t =>
      (t.setReg 3 9).mem == t.mem && (t.setReg 3 9).I == t.I) = true := by decide

/-- The last pair of stored registers, and both fetches from the digits. -/
theorem witness_StoredBytesAreFetched :
    State.reset.mem.wf = true ∧ State.reset.I.toNat + (15 : Reg).val ≤ 0xFFF ∧
    (15 : Reg).val = (14 : Reg).val + 1 ∧ (15 : Reg) ≤ 15 ∧
    nextWith (exec (.storeRegs 15) State.reset) (fun t => (t.setPc 14).pc.toNat == State.reset.I.toNat + (14 : Reg).val) = true ∧
    State.reset.cfg.hasFx33 = true ∧ State.reset.I.toNat + 2 ≤ 0xFFF ∧
    (State.reset.setPc 0).pc.toNat = State.reset.I.toNat ∧ (State.reset.setPc 1).pc.toNat = State.reset.I.toNat + 1 := by decide

theorem witness_TickCountsDownAndBeeps :
    (State.reset.setPending [.tick]).nextEvent = .tick ∧ (State.reset.setPending [.tick]).status = .running ∧
    ((State.reset.setPending [.tick]).setStatus .stopped).status ≠ .running := by decide

theorem witness_KeyPressMarksKeyAndResolvesWait :
    waiting.nextEvent = .keyDown 15 ∧ waiting.status = .running ∧ waiting.latch = .await 15 ∧
    (waiting.setLatch .none).latch = .none := by decide

theorem witness_ReleaseAckAndStop :
    State.reset.status = .running ∧ (State.reset.setPending [.keyUp 15]).nextEvent = .keyUp 15 ∧
    (State.reset.setPending [.renderAck]).nextEvent = .renderAck ∧
    (State.reset.setPending [.stop]).nextEvent = .stop := by decide

theorem witness_KeyWaitSuspendsOnlyTheEngine :
    waiting.status = .running ∧ waiting.latch = .await 15 ∧ (waiting.setPending [.step]).nextEvent = .step ∧
    (waiting.setPending [.tick]).nextEvent = .tick ∧
    nextWith (step waiting) (fun t => t.latch == .none) = true := by decide

/-- The longest ROM image and the first that is too long. -/
theorem witness_ConstructionLoadsFontAndRom :
    (List.replicate 3584 (0 : Byte)).length ≤ 3584 ∧ 3584 < (List.replicate 3585 (0 : Byte)).length ∧
    Config.spec.zeroInit = true := by
  refine ⟨?_, ?_, rfl⟩
  · rw [List.length_replicate]
  · rw [List.length_replicate]; decide

theorem witness_PlacedWordIsExecutedNext :
    State.reset.mem.wf = true ∧ decodeTableWord 16 0xFF65 = some (.loadRegs 15) := by decide

end Sys2Proof.Tests
end

section
/-! PROOF. What each instruction can do to the state, said once (`Effect`, `exec_effect`), and what an event other than
Step can. The statements of 10_state.md follow from these. -/

namespace Sys2Proof

/-- The general registers an instruction may write: its destination, and VF for a flag writer (10_state.md R23). -/
def Instr.Writes : Instr → Reg → Prop
  | .ldImm x _, r | .addImm x _, r | .rnd x _, r | .ldVxDT x, r => r = x
  | .ldReg x _, r | .orReg x _, r | .andReg x _, r | .xorReg x _, r => r = x
  | .addReg x _, r | .subReg x _, r | .shr x _, r | .subnReg x _, r | .shl x _, r => r = x ∨ r = 15
  | .drw _ _ _, r | .addI _, r => r = 15
  | .loadRegs x, r => r ≤ x
  | _, _ => False

end Sys2Proof

namespace Sys2Proof.Machine

/-- `Effect s i t`: what instruction `i` can do to state `s`, with result `t`. One constructor per kind of change, with
the facts about the written values that the invariant needs. -/
inductive Effect (s : State) : Instr → State → Prop
  | halt {i} (reason : FatalReason) (op : Option Word) : Effect s i (s.fatal reason op)
  | goTo {i} (p : Word) (hp : s.pc.toNat ≤ 0xFFE → p.toNat ≤ 0x10FE) : Effect s i (s.setPc p)
  | ret (a : Word) (rest : List Word) (hs : s.stack = a :: rest) : Effect s .ret ((s.setStack rest).setPc (a + 2))
  | call (nnn : Addr12) (hroom : s.stack.length < s.cfg.stackDepth) :
      Effect s (.call nnn) ((s.setStack (s.pc :: s.stack)).setPc (address nnn))
  | regs {i} (v : Vector Byte 16) (hv : ∀ r, ¬ i.Writes r → (s.setV v).reg r = s.reg r) :
      Effect s i (s.setV v).advance
  | rnd (x : Reg) (nn b : Byte) : Effect s (.rnd x nn) ((s.setReg x b).setDraws (s.draws + 1)).advance
  | cls : Effect s .cls ((s.setFb Framebuffer.blank).setDirty true).advance
  | drw (x y : Reg) (n : Fin 16) (f : Framebuffer) (b : Bool) :
      Effect s (.drw x y n) (((s.setFb f).setDirty true).setFlag b).advance
  | ldI (nnn : Addr12) : Effect s (.ldI nnn) (s.setI (address nnn)).advance
  | ldF (x : Reg) : Effect s (.ldF x) (s.setI (extend (s.reg x) * 5)).advance
  | addI (x : Reg) (b : Bool) : Effect s (.addI x) ((s.setI (indexSum s.I (s.reg x))).setFlag b).advance
  | store {i} (vs : List Byte) (hi : ∃ x, i = .ldB x ∨ i = .storeRegs x) (hr : s.I.toNat + vs.length ≤ memSize) :
      Effect s i (s.setMem (s.mem.writeBytes s.I.toNat vs)).advance
  | wait (x : Reg) : Effect s (.ldVxK x) (s.setLatch (.await x))
  | setDelay (x : Reg) (v : Byte) : Effect s (.ldDTVx x) (s.setDT v).advance
  | setSound (x : Reg) (v : Byte) : Effect s (.ldSTVx x) (s.setST v).advance

namespace Effect

/-- A register-only change, given as the state before pc moves on. -/
theorem of_regs {s u : State} {i : Instr} (hu : u = s.setV u.V) (hv : ∀ r, ¬ i.Writes r → u.reg r = s.reg r) :
    Effect s i u.advance := by
  rw [hu] at hv ⊢
  exact regs u.V hv

/-- A skip moves pc by 2 or 4. -/
theorem of_skip (s : State) (i : Instr) (c : Bool) : Effect s i (s.skipIf c) := by
  refine goTo _ fun hp => ?_
  cases c <;> simp only [Bool.false_eq_true, if_true, if_false] <;> bv_omega

end Effect

/-- Every instruction has a next state, fatal or not, and that state is an effect of the instruction. -/
theorem exec_effect (i : Instr) (s : State) : ∃ t, exec i s = .next t ∧ Effect s i t := by
  cases i with
  | cls => exact ⟨_, rfl, .cls⟩
  | ret =>
    cases hs : s.stack with
    | nil => exact ⟨s.fatal .stackUnderflow (some (encode .ret)), by simp [exec, execRet, hs], .halt _ _⟩
    | cons a rest => exact ⟨_, by simp only [exec, execRet, hs], .ret a rest hs⟩
  | jp nnn => exact ⟨_, rfl, .goTo _ fun _ => by have := nnn.isLt; rw [toNat_address]; omega⟩
  | call nnn =>
    by_cases h : s.stack.length < s.cfg.stackDepth
    · exact ⟨_, if_pos h, .call nnn h⟩
    · exact ⟨_, if_neg h, .halt _ _⟩
  | seImm x nn | sneImm x nn | seReg x y | sneReg x y => exact ⟨_, rfl, .of_skip s _ _⟩
  | jpV0 nnn =>
    refine ⟨_, rfl, .goTo _ fun _ => ?_⟩
    have hv := toNat_extend (s.reg 0)
    have hn := toNat_address nnn
    bv_omega
  | ldImm x nn | addImm x nn | ldReg x y | orReg x y | andReg x y | xorReg x y | ldVxDT x
  | addReg x y | subReg x y | shr x y | subnReg x y | shl x y =>
    exact ⟨_, rfl, .of_regs rfl (by simp +contextual [Instr.Writes])⟩
  | rnd x nn => exact ⟨_, rfl, .rnd x nn _⟩
  | drw x y n =>
    by_cases h : inRange s.I.toNat n.val = true
    · exact ⟨_, if_pos h, .drw x y n _ _⟩
    · exact ⟨_, if_neg h, .halt _ _⟩
  | skp x | sknp x =>
    cases hk : keyIndex (s.reg x) with
    | some k => exact ⟨_, by simp only [exec, execSkp, execSknp, hk]; rfl, .of_skip s _ _⟩
    | none => exact ⟨_, by simp only [exec, execSkp, execSknp, hk]; rfl, .halt _ _⟩
  | ldVxK x => exact ⟨_, rfl, .wait x⟩
  | ldDTVx x => exact ⟨_, rfl, .setDelay x _⟩
  | ldSTVx x => exact ⟨_, rfl, .setSound x _⟩
  | ldI nnn => exact ⟨_, rfl, .ldI nnn⟩
  | addI x => exact ⟨_, rfl, .addI x _⟩
  | ldF x => exact ⟨_, rfl, .ldF x⟩
  | ldB x =>
    by_cases hf : s.cfg.hasFx33 = true
    · by_cases hr : inRange s.I.toNat 3 = true
      · exact ⟨_, (if_pos hf).trans (if_pos hr), .store _ ⟨x, .inl rfl⟩ (by simpa [inRange, decimalDigits] using hr)⟩
      · exact ⟨_, (if_pos hf).trans (if_neg hr), .halt _ _⟩
    · exact ⟨_, if_neg hf, .halt _ _⟩
  | storeRegs x =>
    by_cases hr : inRange s.I.toNat (x.val + 1) = true
    · exact ⟨_, if_pos hr, .store _ ⟨x, .inr rfl⟩ (by simpa [inRange] using hr)⟩
    · exact ⟨_, if_neg hr, .halt _ _⟩
  | loadRegs x =>
    by_cases hr : inRange s.I.toNat (x.val + 1) = true
    · exact ⟨_, if_pos hr, .of_regs rfl (by simp +contextual [Instr.Writes])⟩
    · exact ⟨_, if_neg hr, .halt _ _⟩

/-- The inversion of `exec`: a next state is an effect of the instruction. -/
theorem effect_of_exec {i : Instr} {s t : State} (h : exec i s = .next t) : Effect s i t := by
  obtain ⟨t', h', he⟩ := exec_effect i s
  obtain rfl : t' = t := by simpa [h'] using h
  exact he

/-! ### Steps by their event -/

/-- KeyDown, by the three cases of its rule (60_exceptions.md R224, R226). -/
theorem keyDown_cases (s : State) (k : Key) :
    (s.status ≠ .running ∧ s.keyDown k = s) ∨
    (s.latch = .none ∧ s.keyDown k = s.setKey k true) ∨
    (∃ x, s.latch = .await x ∧ s.keyDown k = (s.setKey k true).resolveWait x k) := by
  unfold State.keyDown
  split
  · split
    · next hl => exact .inr (.inl ⟨hl, rfl⟩)
    · next x hl => exact .inr (.inr ⟨x, hl, rfl⟩)
  · next hs => exact .inl ⟨hs, rfl⟩

/-- An event other than Step and KeyDown leaves alone all that the invariant speaks of (60_exceptions.md R222, R225,
R227, R228). -/
theorem deliver_quiet {s t : State} {e : HostEvent} (hs : e ≠ .step) (hk : ∀ k, e ≠ .keyDown k)
    (h : s.deliver e = .next t) :
    t.mem = s.mem ∧ t.I = s.I ∧ t.pc = s.pc ∧ t.stack = s.stack ∧ t.cfg = s.cfg ∧ t.latch = s.latch := by
  cases e with
  | step => exact absurd rfl hs
  | keyDown k => exact absurd rfl (hk k)
  | tick => cases h; unfold State.tick; split <;> simp
  | keyUp k => cases h; unfold State.keyUp; split <;> simp
  | renderAck => cases h; unfold State.renderAck; split <;> simp
  | stop => cases h; unfold State.stop; split <;> simp

/-- A step is the Step event, a key press, or leaves alone all that the invariant speaks of. -/
theorem step_next_cases {s t : State} (h : step s = .next t) :
    (s.nextEvent = .step ∧ s.takeEvent.stepEvent = .next t) ∨
    (∃ k, s.nextEvent = .keyDown k ∧ t = s.takeEvent.keyDown k) ∨
    (t.mem = s.mem ∧ t.I = s.I ∧ t.pc = s.pc ∧ t.stack = s.stack ∧ t.cfg = s.cfg ∧ t.latch = s.latch) := by
  by_cases hs : s.nextEvent = .step
  · exact .inl ⟨hs, by rw [← h, step_of_nextEvent hs]; rfl⟩
  · by_cases hk : ∃ k, s.nextEvent = .keyDown k
    · obtain ⟨k, hk⟩ := hk
      rw [step_of_nextEvent hk] at h
      cases h
      exact .inr (.inl ⟨k, hk, rfl⟩)
    · exact .inr (.inr (by simpa using deliver_quiet hs (fun k he => hk ⟨k, he⟩) h))

end Sys2Proof.Machine
end

section
/-! PROOF. O11: every step keeps the invariant. -/

namespace Sys2Proof.Machine

theorem toNat_add_two {p : Word} (h : p.toNat ≤ 0xFFE) : (p + 2).toNat = p.toNat + 2 := by
  bv_omega

/-- With no key wait pending, pc may be moved anywhere up to 0x10FE. -/
theorem inv_setPc {s : State} {p : Word} (h : s.Inv) (hl : s.latch = .none) (hp : p.toNat ≤ 0x10FE) :
    (s.setPc p).Inv := by
  obtain ⟨hmem, hI, -, hlen, hstack, -⟩ := h
  exact ⟨hmem, hI, hp, hlen, hstack, fun hw => absurd hl hw⟩

theorem inv_advance {s : State} (h : s.Inv) (hl : s.latch = .none) (hp : s.pc.toNat ≤ 0xFFE) : s.advance.Inv :=
  inv_setPc h hl (by rw [toNat_add_two hp]; omega)

theorem inv_setStack {s : State} {k : List Word} (h : s.Inv) (hlen : k.length ≤ s.cfg.stackDepth)
    (hk : ∀ a ∈ k, a.toNat ≤ 0xFFE) : (s.setStack k).Inv := by
  obtain ⟨hmem, hI, hpc, -, -, hwait⟩ := h
  exact ⟨hmem, hI, hpc, hlen, hk, hwait⟩

theorem inv_setI {s : State} {j : Word} (h : s.Inv) (hj : j.toNat ≤ 0xFFF) : (s.setI j).Inv := by
  obtain ⟨hmem, -, hrest⟩ := h
  exact ⟨hmem, hj, hrest⟩

/-- What an instruction does to a sound state it was fetched in is sound. -/
theorem Effect.inv {s t : State} {i : Instr} (e : Effect s i t) (h : s.Inv) (hl : s.latch = .none)
    (hp : s.pc.toNat ≤ 0xFFE) : t.Inv := by
  have ⟨hmem, hI, hpc, hlen, hstack, _⟩ := h
  cases e with
  | halt => exact h
  | goTo p hbound => exact inv_setPc h hl (hbound hp)
  | ret a rest hs =>
    rw [hs] at hlen hstack
    have ha : a.toNat ≤ 0xFFE := hstack a (by simp)
    have hrest : ∀ b ∈ rest, b.toNat ≤ 0xFFE := fun b hb => hstack b (by simp [hb])
    exact inv_setPc (inv_setStack h (Nat.le_of_succ_le hlen) hrest) hl (by rw [toNat_add_two ha]; omega)
  | call nnn hroom =>
    have hk : ∀ a ∈ s.pc :: s.stack, a.toNat ≤ 0xFFE := List.forall_mem_cons.2 ⟨hp, hstack⟩
    exact inv_setPc (inv_setStack h hroom hk) hl (by have := nnn.isLt; rw [toNat_address]; omega)
  | regs v hv => exact inv_advance (s := s.setV v) h hl hp
  | rnd x nn b => exact inv_advance (s := (s.setReg x b).setDraws (s.draws + 1)) h hl hp
  | cls => exact inv_advance (s := (s.setFb .blank).setDirty true) h hl hp
  | drw x y n f b => exact inv_advance (s := ((s.setFb f).setDirty true).setFlag b) h hl hp
  | ldI nnn => exact inv_advance (inv_setI h (by have := nnn.isLt; rw [toNat_address]; omega)) hl hp
  | ldF x =>
    have hj : (extend (s.reg x) * 5).toNat ≤ 0xFFF := by
      rw [BitVec.toNat_mul, toNat_extend]
      exact (Nat.mod_le _ _).trans ((Nat.mul_le_mul_right _ (Nat.le_of_lt_succ (s.reg x).isLt)).trans (by decide))
    exact inv_advance (inv_setI h hj) hl hp
  | addI x b =>
    have hj : (indexSum s.I (s.reg x)).toNat ≤ 0xFFF := by simp [indexSum]; omega
    exact inv_advance (s := (s.setI _).setFlag b) (inv_setI (s := s) h hj) hl hp
  | store vs hi hr =>
    exact inv_advance (s := s.setMem _) ⟨Memory.wf_writeBytes hmem hr, h.2⟩ hl hp
  | wait x => exact ⟨hmem, hI, hpc, hlen, hstack, fun _ => hp⟩
  | setDelay x v => exact inv_advance (s := s.setDT v) h hl hp
  | setSound x v => exact inv_advance (s := s.setST v) h hl hp

theorem stepEvent_inv {s t : State} (h : s.Inv) (ht : s.stepEvent = .next t) : t.Inv := by
  rcases stepEvent_cases s with ⟨-, he⟩ | ⟨-, -, -, he⟩ | ⟨-, -, -, -, he⟩ | ⟨-, hl, hp, i, -, he⟩ <;>
    rw [he] at ht
  · cases ht; exact h
  · cases ht; exact h
  · cases ht; exact h
  · exact (effect_of_exec ht).inv h hl hp

theorem keyDown_inv {s : State} (h : s.Inv) (k : Key) : (s.keyDown k).Inv := by
  rcases keyDown_cases s k with ⟨-, he⟩ | ⟨-, he⟩ | ⟨x, hl, he⟩ <;> rw [he]
  · exact h
  · exact h
  · have ⟨hmem, hI, hpc, hlen, hstack, hwait⟩ := h
    have hp : s.pc.toNat ≤ 0xFFE := hwait (by simp [hl])
    have hclear : (((s.setKey k true).setReg x (BitVec.ofNat 8 k.val)).setLatch .none).Inv :=
      ⟨hmem, hI, hpc, hlen, hstack, fun hw => (hw rfl).elim⟩
    exact inv_advance hclear rfl hp

theorem takeEvent_inv {s : State} (h : s.Inv) : s.takeEvent.Inv := by
  rcases takeEvent_cases s with ⟨p, he⟩ | he <;> rw [he] <;> exact h

/-- Settles O11: each kind of step, the Step event by the effect of the instruction it runs, keeps the invariant. -/
theorem everyStepKeepsTheStateSound : Obligations.EveryStepKeepsTheStateSound := by
  intro s t h ht
  rcases step_next_cases ht with ⟨-, hstep⟩ | ⟨k, -, rfl⟩ | ⟨hmem, hI, hpc, hstack, hcfg, hlatch⟩
  · exact stepEvent_inv (takeEvent_inv h) hstep
  · exact keyDown_inv (takeEvent_inv h) k
  · rwa [State.Inv, hmem, hI, hpc, hstack, hcfg, hlatch]

end Sys2Proof.Machine
end

section
/-! PROOF. O17 and O18: where a key wait starts and where it ends. -/

namespace Sys2Proof.Machine

/-- A word is put together again from its fields `h`, `x` and `nn` (30_encoding.md R72). -/
theorem packImm_fields (op : Word) : packImm (fieldH op) (fieldX op) (fieldNN op) = op := by
  have hlow : op.extractLsb' 8 4 ++ op.extractLsb' 0 8 = op.extractLsb' 0 12 :=
    BitVec.extractLsb'_append_extractLsb'_eq_extractLsb' rfl
  have hall : op.extractLsb' 12 4 ++ op.extractLsb' 0 12 = op.extractLsb' 0 16 :=
    BitVec.extractLsb'_append_extractLsb'_eq_extractLsb' rfl
  exact (congrArg _ hlow).trans (hall.trans BitVec.extractLsb'_eq_self)

theorem decodeMisc_ldVxK {op : Word} {x y : Reg} (h : decodeMisc op y = .ok (.ldVxK x)) :
    y = x ∧ fieldNN op = 0x0A := by
  unfold decodeMisc at h
  split at h <;> cases h
  next hn => exact ⟨rfl, BitVec.eq_of_toNat_eq hn⟩

/-- Only family F decodes to Fx0A, with the low byte 0x0A. -/
theorem fields_of_decodeWord_ldVxK {op : Word} {x : Reg} (h : decodeWord op = .ok (.ldVxK x)) :
    fieldH op = 0xF ∧ fieldX op = x ∧ fieldNN op = 0x0A := by
  unfold decodeWord at h
  split at h
  case h_1 => unfold decodeSystem at h; split_ifs at h <;> cases h
  case h_6 | h_10 => unfold decodeIfZero at h; split at h <;> cases h
  case h_9 => unfold decodeArith at h; split at h <;> cases h
  case h_15 => unfold decodeKeySkip at h; split at h <;> cases h
  case h_16 hf => exact ⟨BitVec.eq_of_toNat_eq hf, decodeMisc_ldVxK h⟩
  all_goals cases h

/-- The word of Fx0A (30_encoding.md R75). -/
theorem packImm_ldVxK : ∀ x : Reg, packImm 0xF x 0x0A = 0xF00A#16 ||| ((BitVec.ofNat 16 x.val) <<< 8) := by
  decide

theorem word_of_decodeWord_ldVxK {op : Word} {x : Reg} (h : decodeWord op = .ok (.ldVxK x)) :
    op = 0xF00A#16 ||| ((BitVec.ofNat 16 x.val) <<< 8) := by
  obtain ⟨hh, hx, hnn⟩ := fields_of_decodeWord_ldVxK h
  rw [← packImm_ldVxK, ← hh, ← hx, ← hnn, packImm_fields]

/-- Only Fx0A writes the latch, and it writes nothing else (43_keys_timers.md R153). -/
theorem Effect.latch_eq_or_wait {s t : State} {i : Instr} (e : Effect s i t) :
    t.latch = s.latch ∨ ∃ x, i = .ldVxK x ∧ t = s.setLatch (.await x) := by
  cases e with
  | wait x => exact .inr ⟨x, rfl, rfl⟩
  | _ => exact .inl rfl

/-- A Step leaves the latch alone, or no wait was pending and the word at pc is an Fx0A. -/
theorem stepEvent_latch {s t : State} (h : s.stepEvent = .next t) :
    t.latch = s.latch ∨
    ∃ x, s.latch = .none ∧ decodeWord s.fetchWord = .ok (.ldVxK x) ∧ t = s.setLatch (.await x) := by
  rcases stepEvent_cases s with ⟨-, he⟩ | ⟨-, -, -, he⟩ | ⟨-, -, -, -, he⟩ | ⟨-, hl, -, i, hi, he⟩ <;>
    rw [he] at h
  · cases h; exact .inl rfl
  · cases h; exact .inl rfl
  · cases h; exact .inl rfl
  · rcases (effect_of_exec h).latch_eq_or_wait with hsame | ⟨x, rfl, ht⟩
    · exact .inl hsame
    · exact .inr ⟨x, hl, hi, ht⟩

/-- Settles O17: with no wait pending, a key press and the quiet events leave the latch clear, and a Step sets it only
by Fx0A. -/
theorem keyWaitStartsOnlyAtFx0A : Obligations.KeyWaitStartsOnlyAtFx0A := by
  intro s t x hl h ht
  rcases step_next_cases h with ⟨he, hstep⟩ | ⟨k, -, rfl⟩ | ⟨-, -, -, -, -, hlatch⟩
  · rcases stepEvent_latch hstep with hsame | ⟨y, -, hdecode, rfl⟩
    · simp [hsame, hl] at ht
    · obtain rfl : y = x := by simpa using ht
      exact ⟨he, by simpa using word_of_decodeWord_ldVxK hdecode, by simp⟩
  · rcases keyDown_cases s.takeEvent k with ⟨-, hd⟩ | ⟨-, hd⟩ | ⟨y, hy, -⟩
    · simp [hd, hl] at ht
    · simp [hd, hl] at ht
    · simp [hl] at hy
  · simp [hlatch, hl] at ht

/-- Settles O18: with a wait pending, a Step and the quiet events leave the latch, and so does a key press after the run
has ended; the key press of a running machine resolves the wait. -/
theorem keyWaitEndsOnlyAtKeyPress : Obligations.KeyWaitEndsOnlyAtKeyPress := by
  intro s t x hl h ht
  rcases step_next_cases h with ⟨-, hstep⟩ | ⟨k, he, rfl⟩ | ⟨-, -, -, -, -, hlatch⟩
  · rcases stepEvent_latch hstep with hsame | ⟨y, hnone, -, -⟩
    · simp [hsame, hl] at ht
    · simp [hl] at hnone
  · rcases keyDown_cases s.takeEvent k with ⟨-, hd⟩ | ⟨hnone, -⟩ | ⟨y, hy, hd⟩
    · simp [hd, hl] at ht
    · simp [hl] at hnone
    · obtain rfl : x = y := by simpa [hl] using hy
      rw [hd, State.resolveWait]
      exact ⟨k, he, by simp, by simp; omega, by simp⟩
  · simp [hlatch, hl] at ht

end Sys2Proof.Machine
end

section
/-! PROOF. O19 and O20: which instructions write which part of the state. -/

namespace Sys2Proof.Machine

/-- A register the instruction does not write keeps its value. -/
theorem Effect.reg_eq {s t : State} {i : Instr} (e : Effect s i t) {r : Reg} (hr : ¬ i.Writes r) :
    t.reg r = s.reg r := by
  cases e with
  | regs v hv => exact hv r hr
  | rnd x nn b => simp [show r ≠ x from hr]
  | drw x y n f b | addI x b => simp [show r ≠ 15 from hr]
  | _ => simp

/-- The instructions that may write VF, as 10_state.md R23 lists them. -/
theorem writes_flag {i : Instr} (h : i.Writes 15) :
    (∃ x y, i = .addReg x y ∨ i = .subReg x y ∨ i = .shr x y ∨ i = .subnReg x y ∨ i = .shl x y) ∨
    (∃ x y n, i = .drw x y n) ∨ (∃ x, i = .addI x) ∨
    (∃ nn, i = .ldImm 15 nn ∨ i = .addImm 15 nn ∨ i = .rnd 15 nn) ∨
    (∃ y, i = .ldReg 15 y ∨ i = .orReg 15 y ∨ i = .andReg 15 y ∨ i = .xorReg 15 y) ∨
    i = .ldVxDT 15 ∨ i = .loadRegs 15 := by
  cases i with
  | addReg x y | subReg x y | shr x y | subnReg x y | shl x y | drw x y n | addI x => simp
  | ldImm x nn | addImm x nn | rnd x nn | ldReg x y | orReg x y | andReg x y | xorReg x y | ldVxDT x =>
    obtain rfl : 15 = x := h
    simp
  | loadRegs x =>
    obtain rfl : x = 15 := Fin.le_antisymm (Fin.le_last x) h
    simp
  | _ => exact h.elim

/-- Settles O20: a register changes only when the instruction writes it. -/
theorem flagRegisterHasOnlyItsWriters : Obligations.FlagRegisterHasOnlyItsWriters := by
  intro i s t h hne
  by_contra hno
  exact hne ((effect_of_exec h).reg_eq fun hw => hno (writes_flag hw))

/-- Settles O19, effect by effect: a store changes memory, every other effect names its instruction or leaves the part. -/
theorem instructionsWriteOnlyTheirState : Obligations.InstructionsWriteOnlyTheirState := by
  intro i s t h
  cases effect_of_exec h with
  | store vs hi hr => simp [hi]
  | _ => simp

end Sys2Proof.Machine
end

section
/-! PROOF. O22 and O23: no event reads the dirty flag, and no instruction but Dxyn reads the framebuffer. -/

namespace Sys2Proof.Machine

/-- A change of the next state, if there is one. -/
def mapNext (g : State → State) : Result → Result
  | .next t => .next (g t)
  | .fault r => .fault r
  | .refused r => .refused r

/-- The state with another framebuffer and another dirty flag. -/
def State.setScreen (s : State) (f : Framebuffer) (d : Bool) : State := (s.setFb f).setDirty d

section
variable (s : State) (f : Framebuffer) (d : Bool)
@[simp] theorem setScreen_stack : (s.setScreen f d).stack = s.stack := rfl
@[simp] theorem setScreen_reg (r : Reg) : (s.setScreen f d).reg r = s.reg r := rfl
end

/-- An instruction other than 00E0 and Dxyn neither reads nor writes the framebuffer and the dirty flag: with another
screen it does the same. -/
theorem exec_setScreen {i : Instr} (hcls : i ≠ .cls) (hdrw : ∀ x y n, i ≠ .drw x y n) (s : State) (f : Framebuffer)
    (d : Bool) : exec i (s.setScreen f d) = mapNext (·.setScreen f d) (exec i s) := by
  cases i with
  | cls => exact absurd rfl hcls
  | drw x y n => exact absurd rfl (hdrw x y n)
  | ret | skp x | sknp x =>
    simp only [exec, execRet, execSkp, execSknp, setScreen_stack, setScreen_reg]
    split <;> rfl
  | call nnn | ldB x | storeRegs x | loadRegs x =>
    simp only [exec, execCall, execLdB, execStoreRegs, execLoadRegs, apply_ite (mapNext _)]
    rfl
  | _ => rfl

/-- An instruction other than 00E0 and Dxyn leaves the screen as it is. -/
theorem Effect.screen_eq {s t : State} {i : Instr} (e : Effect s i t) (hcls : i ≠ .cls)
    (hdrw : ∀ x y n, i ≠ .drw x y n) : t.fb = s.fb ∧ t.dirty = s.dirty := by
  cases e with
  | cls => exact absurd rfl hcls
  | drw x y n => exact absurd rfl (hdrw x y n)
  | _ => exact ⟨rfl, rfl⟩

/-- With another framebuffer such an instruction gives the same next state but for the framebuffer. -/
theorem exec_setFb {i : Instr} {s t : State} (hcls : i ≠ .cls) (hdrw : ∀ x y n, i ≠ .drw x y n)
    (h : exec i s = .next t) (f : Framebuffer) : exec i (s.setFb f) = .next (t.setFb f) :=
  calc exec i (s.setFb f) = mapNext (·.setScreen f s.dirty) (exec i s) := exec_setScreen hcls hdrw s f s.dirty
    _ = .next (t.setScreen f t.dirty) := by rw [h, ((effect_of_exec h).screen_eq hcls hdrw).2]; rfl

/-- With another dirty flag such an instruction gives the same next state but for the flag. -/
theorem exec_setDirty {i : Instr} {s t : State} (hcls : i ≠ .cls) (hdrw : ∀ x y n, i ≠ .drw x y n)
    (h : exec i s = .next t) (d : Bool) : exec i (s.setDirty d) = .next (t.setDirty d) :=
  calc exec i (s.setDirty d) = mapNext (·.setScreen s.fb d) (exec i s) := exec_setScreen hcls hdrw s s.fb d
    _ = .next (t.setScreen t.fb d) := by rw [h, ((effect_of_exec h).screen_eq hcls hdrw).1]; rfl

/-- Settles O23: Dxyn left out, an instruction does the same with any framebuffer and keeps it, or is 00E0. -/
theorem framebufferIsReadOnlyByDraw : Obligations.FramebufferIsReadOnlyByDraw := by
  intro i s t f h hdrw
  constructor
  · intro hcls
    exact ⟨((effect_of_exec h).screen_eq hcls hdrw).1, exec_setFb hcls hdrw h f⟩
  · rintro rfl
    cases h
    exact ⟨fun c r => Framebuffer.pixel_blank c r, rfl⟩

/-- At `s` the transition `F` does not read the dirty flag: it passes the flag on, or overwrites it. -/
def DirtyUnread (F : State → Result) (s : State) : Prop :=
  (∀ d, F (s.setDirty d) = mapNext (·.setDirty d) (F s)) ∨ ∀ d, F (s.setDirty d) = F s

/-- 00E0 and a Dxyn in range overwrite the flag, every other execution passes it on. -/
theorem exec_dirtyUnread (i : Instr) (s : State) : DirtyUnread (exec i) s := by
  by_cases hcls : i = .cls
  · subst hcls
    exact .inr fun _ => rfl
  by_cases hdrw : ∀ x y n, i ≠ .drw x y n
  · obtain ⟨t, h, -⟩ := exec_effect i s
    exact .inl fun d => by rw [exec_setDirty hcls hdrw h d, h, mapNext]
  · push Not at hdrw
    obtain ⟨x, y, n, rfl⟩ := hdrw
    by_cases hr : inRange s.I.toNat n.val = true
    · exact .inr fun _ => (if_pos hr).trans (if_pos hr).symm
    · have h : exec (.drw x y n) s = .next (s.fatal .memRange (some (encode (.drw x y n)))) := if_neg hr
      exact .inl fun d => by rw [h]; exact if_neg hr

theorem stepEvent_dirtyUnread (s : State) : DirtyUnread State.stepEvent s := by
  have hfetch : ∀ d, (s.setDirty d).fetch = s.fetch := fun _ => rfl
  cases hs : s.fetch with
  | idle | outOfRange | unknown op => exact .inl fun d => by simp only [State.stepEvent, hfetch, hs]; rfl
  | run i => simpa only [DirtyUnread, State.stepEvent, hfetch, hs] using exec_dirtyUnread i s

/-- RenderAck overwrites the flag, a Step does what its instruction does, every other event passes the flag on. -/
theorem deliver_dirtyUnread (e : HostEvent) (s : State) : DirtyUnread (·.deliver e) s := by
  cases e with
  | step => exact stepEvent_dirtyUnread s
  | tick | keyUp k | stop =>
    refine .inl fun d => ?_
    simp only [State.deliver, State.tick, State.keyUp, State.stop, State.setDirty_status]
    split <;> rfl
  | keyDown k =>
    refine .inl fun d => ?_
    simp only [State.deliver, State.keyDown, State.setDirty_status, State.setDirty_latch]
    split
    · split <;> rfl
    · rfl
  | renderAck =>
    cases hs : s.status with
    | running => exact .inr fun d => by simp only [State.deliver, State.renderAck, State.setDirty_status, hs]; rfl
    | halted | stopped =>
      exact .inl fun d => by simp only [State.deliver, State.renderAck, State.setDirty_status, hs]; rfl

theorem takeEvent_setDirty (s : State) (d : Bool) : (s.setDirty d).takeEvent = s.takeEvent.setDirty d := by
  simp only [State.takeEvent, State.setDirty_pending]
  split <;> rfl

theorem step_dirtyUnread (s : State) : DirtyUnread step s := by
  have hstep : ∀ d, step (s.setDirty d) = (s.takeEvent.setDirty d).deliver s.nextEvent := fun d => by
    rw [← takeEvent_setDirty]; rfl
  rcases deliver_dirtyUnread s.nextEvent s.takeEvent with hpass | hover
  · exact .inl fun d => (hstep d).trans (hpass d)
  · exact .inr fun d => (hstep d).trans (hover d)

/-- Settles O22: the step passes the dirty flag on, and then `t` holds that of `s`, or overwrites it, and then both
steps agree. -/
theorem dirtyFlagIsNeverRead : Obligations.DirtyFlagIsNeverRead := by
  intro s t b h
  rcases step_dirtyUnread s with hpass | hover
  · simp only [h, mapNext] at hpass
    have hsame : t = t.setDirty s.dirty := Host.Outcome.next.inj (h.symm.trans (hpass s.dirty))
    exact ⟨t.setDirty b, hpass b, rfl, .inr ⟨rfl, congrArg (·.dirty) hsame⟩⟩
  · exact ⟨t, (hover b).trans h, rfl, .inl rfl⟩

end Sys2Proof.Machine
end

section
/-! PROOF. O21 and O9: what the host's events leave of the program's state, and which instruction a Step runs. -/

namespace Sys2Proof.Machine

/-- An event other than Step writes only the keys, the timers, the dirty flag, the status and the output, or it is
the key press that ends a wait and writes the keys, the latch, pc and the waiting register (60_exceptions.md R222 to R228). -/
theorem deliver_host_cases {s t : State} {e : HostEvent} (hs : e ≠ .step) (h : s.deliver e = .next t) :
    (s.SameRegsBut t [] ∧ s.SameBut t [.dirty, .key, .DT, .ST, .status, .trace]) ∨
    (∃ k x, e = .keyDown k ∧ s.latch = .await x ∧ s.SameRegsBut t [x] ∧ s.SameBut t [.key, .latch, .pc]) := by
  simp only [State.SameRegsBut, State.SameBut, State.SameMemory]
  cases e with
  | step => exact absurd rfl hs
  | tick => cases h; unfold State.tick; split <;> simp
  | keyUp k => cases h; unfold State.keyUp; split <;> simp
  | renderAck => cases h; unfold State.renderAck; split <;> simp
  | stop => cases h; unfold State.stop; split <;> simp
  | keyDown k =>
    cases h
    rcases keyDown_cases s k with ⟨-, he⟩ | ⟨-, he⟩ | ⟨x, hl, he⟩ <;> rw [he]
    · simp
    · simp
    · exact .inr ⟨k, x, rfl, hl, by simp +contextual [State.resolveWait]⟩

/-- Settles O21: both frames of `deliver_host_cases` leave the program's memory alone, and only the key press that ends
a wait moves pc or writes a register. -/
theorem hostEventsLeaveProgramStateAlone : Obligations.HostEventsLeaveProgramStateAlone := by
  intro s t hs h
  rcases deliver_host_cases hs h with ⟨hregs, hbut⟩ | ⟨k, x, he, hl, hregs, hbut⟩
  · simp_all [State.SameRegsBut, State.SameBut, State.SameMemory]
  · simp_all [State.SameRegsBut, State.SameBut, State.SameMemory]

/-- Two bytes that decode make a word that decodes to the same instruction (20_memory.md R53, 30_encoding.md R71). -/
theorem decodeWord_of_decode {hi lo : Byte} {i : Instr} {rest : List Byte} (h : decode [hi, lo] = .ok (i, rest)) :
    decodeWord (wordOfBytes hi lo) = .ok i := by
  cases hw : decodeWord (wordOfBytes hi lo) with
  | ok j => simp_all [decode]
  | error e => simp [decode, hw] at h

/-- Settles O9: of the cases of a Step event only the execution of the decoded word is left. -/
theorem stepRunsDecodedInstruction : Obligations.StepRunsDecodedInstruction := by
  intro s i he hs hl hp hd
  have hword : decodeWord s.fetchWord = .ok i := decodeWord_of_decode hd
  have hstep : step s = s.takeEvent.stepEvent := step_of_nextEvent he
  rcases stepEvent_cases s.takeEvent with
    ⟨hidle, -⟩ | ⟨-, -, hrange, -⟩ | ⟨-, -, -, ⟨e, herr⟩, -⟩ | ⟨-, -, -, j, hj, hrun⟩
  · simp [hs, hl] at hidle
  · rw [takeEvent_pc] at hrange
    omega
  · simp [hword] at herr
  · obtain rfl : i = j := by simpa [hword] using hj
    exact hstep.trans hrun

end Sys2Proof.Machine
end

section
/-! PROOF. O1 to O5: encoding and decoding are inverse, and the opcode map says which words decode. The decoder is
followed through all its branches twice: once on the word of an instruction (`decodeWord_encode`), once on any word
(`reads_decodeWord`). The rest follows from these two. -/

namespace Sys2Proof

open Laws
open Laws.EncodesRow (packAddr_family packImm_select packRegs_select)
open Machine (packImm_fields)

/-! ### A field read from a word made of fields (R72) -/

@[simp] theorem fieldH_packAddr (h : BitVec 4) (nnn : Addr12) : fieldH (packAddr h nnn) = h :=
  BitVec.extractLsb'_append_eq_left

@[simp] theorem fieldNNN_packAddr (h : BitVec 4) (nnn : Addr12) : fieldNNN (packAddr h nnn) = nnn :=
  BitVec.extractLsb'_append_eq_right

@[simp] theorem fieldH_packImm (h : BitVec 4) (x : Reg) (nn : Byte) : fieldH (packImm h x nn) = h :=
  fieldH_packAddr h _

@[simp] theorem fieldX_packImm (h : BitVec 4) (x : Reg) (nn : Byte) : fieldX (packImm h x nn) = x := by
  have hx : (h ++ (nibble x ++ nn)).extractLsb' 8 4 = nibble x := by
    rw [BitVec.extractLsb'_append_eq_of_add_le (by decide), BitVec.extractLsb'_append_eq_left]
  exact congrArg BitVec.toFin hx

@[simp] theorem fieldNN_packImm (h : BitVec 4) (x : Reg) (nn : Byte) : fieldNN (packImm h x nn) = nn := by
  have hnn : (h ++ (nibble x ++ nn)).extractLsb' 0 8 = nn := by
    rw [BitVec.extractLsb'_append_eq_of_add_le (by decide), BitVec.extractLsb'_append_eq_right]
  exact hnn

@[simp] theorem fieldH_packRegs (h : BitVec 4) (x y : Reg) (n : BitVec 4) : fieldH (packRegs h x y n) = h :=
  fieldH_packAddr h _

@[simp] theorem fieldX_packRegs (h : BitVec 4) (x y : Reg) (n : BitVec 4) : fieldX (packRegs h x y n) = x :=
  fieldX_packImm h x _

/-- The low byte of a word with two registers is the second register above the low nibble. -/
theorem fieldNN_packRegs (h : BitVec 4) (x y : Reg) (n : BitVec 4) : fieldNN (packRegs h x y n) = nibble y ++ n :=
  fieldNN_packImm h x _

theorem fieldY_eq_fieldNN (op : Word) : fieldY op = ((fieldNN op).extractLsb' 4 4).toFin := by
  simp [fieldY, fieldNN]

theorem fieldN_eq_fieldNN (op : Word) : fieldN op = ((fieldNN op).extractLsb' 0 4).toFin := by
  simp [fieldN, fieldNN]

@[simp] theorem fieldY_packRegs (h : BitVec 4) (x y : Reg) (n : BitVec 4) : fieldY (packRegs h x y n) = y := by
  rw [fieldY_eq_fieldNN, fieldNN_packRegs, BitVec.extractLsb'_append_eq_left]
  rfl

@[simp] theorem fieldN_packRegs (h : BitVec 4) (x y : Reg) (n : BitVec 4) : fieldN (packRegs h x y n) = n.toFin := by
  rw [fieldN_eq_fieldNN, fieldNN_packRegs, BitVec.extractLsb'_append_eq_right]

/-! ### A word put together again from its fields -/

theorem packAddr_fields (op : Word) : packAddr (fieldH op) (fieldNNN op) = op :=
  BitVec.extractLsb'_append_extractLsb'_eq_extractLsb' rfl |>.trans BitVec.extractLsb'_eq_self

theorem packRegs_fields (op : Word) : packRegs (fieldH op) (fieldX op) (fieldY op) (nibble (fieldN op)) = op := by
  have hlow : op.extractLsb' 4 4 ++ op.extractLsb' 0 4 = op.extractLsb' 0 8 :=
    BitVec.extractLsb'_append_extractLsb'_eq_extractLsb' rfl
  exact (congrArg _ (congrArg _ hlow)).trans (packImm_fields op)

theorem packAddr_of_fields {op : Word} {h : BitVec 4} (hh : (fieldH op).toNat = h.toNat) :
    packAddr h (fieldNNN op) = op := by
  rw [← BitVec.eq_of_toNat_eq hh, packAddr_fields]

theorem packImm_of_fields {op : Word} {h : BitVec 4} {nn : Byte} (hh : (fieldH op).toNat = h.toNat)
    (hnn : (fieldNN op).toNat = nn.toNat) : packImm h (fieldX op) nn = op := by
  rw [← BitVec.eq_of_toNat_eq hh, ← BitVec.eq_of_toNat_eq hnn, packImm_fields]

theorem packRegs_of_fields {op : Word} {h n : BitVec 4} (hh : (fieldH op).toNat = h.toNat)
    (hn : (fieldN op).val = n.toNat) : packRegs h (fieldX op) (fieldY op) n = op := by
  have hnib : nibble (fieldN op) = n := BitVec.eq_of_toNat_eq hn
  rw [← BitVec.eq_of_toNat_eq hh, ← hnib, packRegs_fields]

theorem wordOfBytes_bytes (w : Word) : wordOfBytes (highByte w) (lowByte w) = w :=
  BitVec.extractLsb'_append_extractLsb'_eq_extractLsb' rfl |>.trans BitVec.extractLsb'_eq_self

/-! ### Decoding the word of an instruction -/

/-- Families 1 to 4, 6, 7 and A to D are known by `h` alone, 5, 8 and 9 by `n` as well, E and F by `nn` as well. -/
theorem decodeWord_encode (i : Instr) : decodeWord (encode i) = .ok i := by
  cases i
  case cls | ret => rfl
  case jp | call | ldI | jpV0 => simp [encode, decodeWord]
  case seImm | sneImm | ldImm | addImm | rnd => simp [encode, decodeWord]
  case drw => simp [encode, decodeWord, nibble]
  case seReg | sneReg => simp [encode, decodeWord, decodeIfZero]
  case ldReg | orReg | andReg | xorReg | addReg | subReg | shr | subnReg | shl =>
    simp [encode, decodeWord, decodeArith]
  case skp | sknp => simp [encode, decodeWord, decodeKeySkip]
  case ldVxDT | ldVxK | ldDTVx | ldSTVx | addI | ldF | ldB | storeRegs | loadRegs =>
    simp [encode, decodeWord, decodeMisc]

/-- Settles O1: the two bytes of the encoding make its word again, and that word decodes to the instruction. -/
theorem decodeOfEncodeIsIdentity : Obligations.DecodeOfEncodeIsIdentity := by
  intro i rest
  refine ⟨decodeWord_encode i, ?_⟩
  simp [encodeBytes, decode, wordOfBytes_bytes, decodeWord_encode]

/-! ### Decoding any word -/

/-- What the decoder may answer for the word `op`: an instruction whose word is `op`, or that `op` is unknown. -/
def Reads (op : Word) : Except DecodeError Instr → Prop
  | .ok i => encode i = op
  | .error e => e = .unknownOpcode op

theorem reads_decodeSystem (op : Word) : Reads op (decodeSystem op) := by
  unfold decodeSystem
  split_ifs with hcls hret
  · exact hcls.symm
  · exact hret.symm
  · rfl

theorem reads_decodeIfZero {op : Word} {i : Instr} (hi : (fieldN op).val = 0 → encode i = op) :
    Reads op (decodeIfZero op i) := by
  unfold decodeIfZero
  split_ifs with hn
  · exact hi (congrArg Fin.val hn)
  · rfl

theorem reads_decodeArith {op : Word} (hh : (fieldH op).toNat = 0x8) :
    Reads op (decodeArith op (fieldX op) (fieldY op)) := by
  unfold decodeArith
  split
  case h_10 => rfl
  all_goals next hn => exact packRegs_of_fields hh hn

theorem reads_decodeKeySkip {op : Word} (hh : (fieldH op).toNat = 0xE) : Reads op (decodeKeySkip op (fieldX op)) := by
  unfold decodeKeySkip
  split
  case h_3 => rfl
  all_goals next hnn => exact packImm_of_fields hh hnn

theorem reads_decodeMisc {op : Word} (hh : (fieldH op).toNat = 0xF) : Reads op (decodeMisc op (fieldX op)) := by
  unfold decodeMisc
  split
  case h_10 => rfl
  all_goals next hnn => exact packImm_of_fields hh hnn

theorem reads_decodeWord (op : Word) : Reads op (decodeWord op) := by
  unfold decodeWord
  split
  case h_1 => exact reads_decodeSystem op
  case h_2 hh | h_3 hh | h_11 hh | h_12 hh => exact packAddr_of_fields hh
  case h_4 hh | h_5 hh | h_7 hh | h_8 hh | h_13 hh => exact packImm_of_fields hh rfl
  case h_6 hh | h_10 hh => exact reads_decodeIfZero fun hn => packRegs_of_fields hh hn
  case h_9 hh => exact reads_decodeArith hh
  case h_14 hh => exact packRegs_of_fields hh rfl
  case h_15 hh => exact reads_decodeKeySkip hh
  case h_16 hh => exact reads_decodeMisc hh
  case h_17 => rfl

theorem encode_of_decodeWord {op : Word} {i : Instr} (h : decodeWord op = .ok i) : encode i = op := by
  simpa [h, Reads] using reads_decodeWord op

theorem unknownOpcode_of_decodeWord {op : Word} {e : DecodeError} (h : decodeWord op = .error e) :
    e = .unknownOpcode op := by
  simpa [h, Reads] using reads_decodeWord op

/-- Settles O2: what the decoder reads from a word has that word. -/
theorem encodeOfDecodeIsIdentity : Obligations.EncodeOfDecodeIsIdentity :=
  fun _ _ => encode_of_decodeWord

/-! ### The rows of the opcode map (R75) -/

/-- The word of every instruction lies in the row with the instruction's mnemonic. -/
theorem encode_mem_row (i : Instr) : EncodesRow.Statement i := by
  cases i with
  | cls => exact EncodesRow.cls
  | ret => exact EncodesRow.ret
  | jp => exact EncodesRow.jp _
  | call => exact EncodesRow.call _
  | seImm => exact EncodesRow.seImm _ _
  | sneImm => exact EncodesRow.sneImm _ _
  | seReg => exact EncodesRow.seReg _ _
  | ldImm => exact EncodesRow.ldImm _ _
  | addImm => exact EncodesRow.addImm _ _
  | ldReg => exact EncodesRow.ldReg _ _
  | orReg => exact EncodesRow.orReg _ _
  | andReg => exact EncodesRow.andReg _ _
  | xorReg => exact EncodesRow.xorReg _ _
  | addReg => exact EncodesRow.addReg _ _
  | subReg => exact EncodesRow.subReg _ _
  | shr => exact EncodesRow.shr _ _
  | subnReg => exact EncodesRow.subnReg _ _
  | shl => exact EncodesRow.shl _ _
  | sneReg => exact EncodesRow.sneReg _ _
  | ldI => exact EncodesRow.ldI _
  | jpV0 => exact EncodesRow.jpV0 _
  | rnd => exact EncodesRow.rnd _ _
  | drw => exact EncodesRow.drw _ _ _
  | skp => exact EncodesRow.skp _
  | sknp => exact EncodesRow.sknp _
  | ldVxDT => exact EncodesRow.ldVxDT _
  | ldVxK => exact EncodesRow.ldVxK _
  | ldDTVx => exact EncodesRow.ldDTVx _
  | ldSTVx => exact EncodesRow.ldSTVx _
  | addI => exact EncodesRow.addI _
  | ldF => exact EncodesRow.ldF _
  | ldB => exact EncodesRow.ldB _
  | storeRegs => exact EncodesRow.storeRegs _
  | loadRegs => exact EncodesRow.loadRegs _

/-- Every word the row accepts is the word of an instruction with the row's mnemonic. -/
def OpcodeRow.Covered (row : OpcodeRow) : Prop :=
  ∀ op : Word, row.accepts op = true → ∃ i, encode i = op ∧ i.mnemonic = row.mnemonic

/-- What the mask 0xF000 leaves of a word fixes `h`. -/
theorem fieldH_of_mask {op : Word} {h : BitVec 4} (hm : op &&& 0xF000#16 = h ++ 0#12) : fieldH op = h := by
  rw [← packAddr_fields op, packAddr_family] at hm
  have hpack : packAddr (fieldH op) 0 = packAddr h 0 := hm
  simpa using congrArg fieldH hpack

/-- What the mask 0xF0FF leaves of a word fixes `h` and `nn`. -/
theorem fields_of_mask_nn {op : Word} {h : BitVec 4} {nn : Byte} (hm : op &&& 0xF0FF#16 = h ++ (0#4 ++ nn)) :
    fieldH op = h ∧ fieldNN op = nn := by
  rw [← packImm_fields op, packImm_select] at hm
  have hpack : packImm (fieldH op) 0 (fieldNN op) = packImm h 0 nn := hm
  exact ⟨by simpa using congrArg fieldH hpack, by simpa using congrArg fieldNN hpack⟩

/-- What the mask 0xF00F leaves of a word fixes `h` and `n`. -/
theorem fields_of_mask_n {op : Word} {h n : BitVec 4} (hm : op &&& 0xF00F#16 = h ++ (0#4 ++ (0#4 ++ n))) :
    fieldH op = h ∧ fieldN op = n.toFin := by
  rw [← packRegs_fields op, packRegs_select] at hm
  have hpack : packRegs (fieldH op) 0 0 (nibble (fieldN op)) = packRegs h 0 0 n := hm
  exact ⟨by simpa using congrArg fieldH hpack, by simpa [nibble] using congrArg fieldN hpack⟩

theorem OpcodeRow.eq_of_accepts {name : String} {mask pattern op : Word}
    (hop : OpcodeRow.accepts ⟨name, mask, pattern⟩ op = true) : op &&& mask = pattern :=
  eq_of_beq hop

/-- A row with mask 0xFFFF accepts one word. -/
theorem covered_word (i : Instr) : OpcodeRow.Covered ⟨i.mnemonic, 0xFFFF, encode i⟩ := by
  intro op hop
  have hones : op &&& 0xFFFF#16 = op := BitVec.and_allOnes
  exact ⟨i, (OpcodeRow.eq_of_accepts hop).symm.trans hones, rfl⟩

theorem covered_addr {name : String} (h : BitVec 4) (mk : Addr12 → Instr) (hname : ∀ nnn, (mk nnn).mnemonic = name)
    (henc : ∀ nnn, encode (mk nnn) = packAddr h nnn) : OpcodeRow.Covered ⟨name, 0xF000, h ++ 0#12⟩ := by
  intro op hop
  have hh := fieldH_of_mask (OpcodeRow.eq_of_accepts hop)
  exact ⟨mk (fieldNNN op), by rw [henc, ← hh, packAddr_fields], hname _⟩

theorem covered_imm {name : String} (h : BitVec 4) (mk : Reg → Byte → Instr)
    (hname : ∀ x nn, (mk x nn).mnemonic = name) (henc : ∀ x nn, encode (mk x nn) = packImm h x nn) :
    OpcodeRow.Covered ⟨name, 0xF000, h ++ 0#12⟩ := by
  intro op hop
  have hh := fieldH_of_mask (OpcodeRow.eq_of_accepts hop)
  exact ⟨mk (fieldX op) (fieldNN op), by rw [henc, ← hh, packImm_fields], hname _ _⟩

theorem covered_drw : OpcodeRow.Covered ⟨"DRW_Vx__Vy__n", 0xF000, 0xD000⟩ := by
  intro op hop
  have hh : fieldH op = 0xD := fieldH_of_mask (OpcodeRow.eq_of_accepts hop)
  exact ⟨.drw (fieldX op) (fieldY op) (fieldN op), by rw [encode, ← hh, packRegs_fields], rfl⟩

theorem covered_regs {name : String} (h n : BitVec 4) (mk : Reg → Reg → Instr)
    (hname : ∀ x y, (mk x y).mnemonic = name) (henc : ∀ x y, encode (mk x y) = packRegs h x y n) :
    OpcodeRow.Covered ⟨name, 0xF00F, h ++ (0#4 ++ (0#4 ++ n))⟩ := by
  intro op hop
  obtain ⟨rfl, hn⟩ := fields_of_mask_n (OpcodeRow.eq_of_accepts hop)
  exact ⟨mk (fieldX op) (fieldY op), by rw [henc, packRegs_of_fields rfl (congrArg Fin.val hn)], hname _ _⟩

theorem covered_reg {name : String} (h : BitVec 4) (nn : Byte) (mk : Reg → Instr)
    (hname : ∀ x, (mk x).mnemonic = name) (henc : ∀ x, encode (mk x) = packImm h x nn) :
    OpcodeRow.Covered ⟨name, 0xF0FF, h ++ (0#4 ++ nn)⟩ := by
  intro op hop
  obtain ⟨rfl, rfl⟩ := fields_of_mask_nn (OpcodeRow.eq_of_accepts hop)
  exact ⟨mk (fieldX op), by rw [henc, packImm_fields], hname _⟩

theorem opcodeMap_covered : ∀ row ∈ opcodeMap, row.Covered := by
  simp only [opcodeMap, List.cons_append, List.nil_append, List.forall_mem_cons]
  exact ⟨covered_word .cls,
    covered_word .ret,
    covered_addr 0x1 .jp (fun _ => rfl) (fun _ => rfl),
    covered_addr 0x2 .call (fun _ => rfl) (fun _ => rfl),
    covered_imm 0x3 .seImm (fun _ _ => rfl) (fun _ _ => rfl),
    covered_imm 0x4 .sneImm (fun _ _ => rfl) (fun _ _ => rfl),
    covered_regs 0x5 0x0 .seReg (fun _ _ => rfl) (fun _ _ => rfl),
    covered_imm 0x6 .ldImm (fun _ _ => rfl) (fun _ _ => rfl),
    covered_imm 0x7 .addImm (fun _ _ => rfl) (fun _ _ => rfl),
    covered_regs 0x8 0x0 .ldReg (fun _ _ => rfl) (fun _ _ => rfl),
    covered_regs 0x8 0x1 .orReg (fun _ _ => rfl) (fun _ _ => rfl),
    covered_regs 0x8 0x2 .andReg (fun _ _ => rfl) (fun _ _ => rfl),
    covered_regs 0x8 0x3 .xorReg (fun _ _ => rfl) (fun _ _ => rfl),
    covered_regs 0x8 0x4 .addReg (fun _ _ => rfl) (fun _ _ => rfl),
    covered_regs 0x8 0x5 .subReg (fun _ _ => rfl) (fun _ _ => rfl),
    covered_regs 0x8 0x6 .shr (fun _ _ => rfl) (fun _ _ => rfl),
    covered_regs 0x8 0x7 .subnReg (fun _ _ => rfl) (fun _ _ => rfl),
    covered_regs 0x8 0xE .shl (fun _ _ => rfl) (fun _ _ => rfl),
    covered_regs 0x9 0x0 .sneReg (fun _ _ => rfl) (fun _ _ => rfl),
    covered_addr 0xA .ldI (fun _ => rfl) (fun _ => rfl),
    covered_addr 0xB .jpV0 (fun _ => rfl) (fun _ => rfl),
    covered_imm 0xC .rnd (fun _ _ => rfl) (fun _ _ => rfl),
    covered_drw,
    covered_reg 0xE 0x9E .skp (fun _ => rfl) (fun _ => rfl),
    covered_reg 0xE 0xA1 .sknp (fun _ => rfl) (fun _ => rfl),
    covered_reg 0xF 0x07 .ldVxDT (fun _ => rfl) (fun _ => rfl),
    covered_reg 0xF 0x0A .ldVxK (fun _ => rfl) (fun _ => rfl),
    covered_reg 0xF 0x15 .ldDTVx (fun _ => rfl) (fun _ => rfl),
    covered_reg 0xF 0x18 .ldSTVx (fun _ => rfl) (fun _ => rfl),
    covered_reg 0xF 0x1E .addI (fun _ => rfl) (fun _ => rfl),
    covered_reg 0xF 0x29 .ldF (fun _ => rfl) (fun _ => rfl),
    covered_reg 0xF 0x33 .ldB (fun _ => rfl) (fun _ => rfl),
    covered_reg 0xF 0x55 .storeRegs (fun _ => rfl) (fun _ => rfl),
    covered_reg 0xF 0x65 .loadRegs (fun _ => rfl) (fun _ => rfl),
    List.forall_mem_nil _⟩

/-- Settles O3: an accepted word is an instruction's word, which decodes to that instruction; a word that decodes is an
instruction's word, which some row accepts. -/
theorem decoderFollowsOpcodeMap : Obligations.DecoderFollowsOpcodeMap := by
  intro op
  constructor
  · intro row hrow hop
    obtain ⟨i, rfl, hname⟩ := opcodeMap_covered row hrow op hop
    exact ⟨i, decodeWord_encode i, hname⟩
  · intro hnone
    cases hd : decodeWord op with
    | ok i =>
      obtain ⟨row, hrow, -, hop⟩ := encode_mem_row i
      rw [encode_of_decodeWord hd, hnone row hrow] at hop
      cases hop
    | error e => rw [unknownOpcode_of_decodeWord hd]

/-! ### The fields as the spec's masks and shifts extract them (R72, R73) -/

theorem fieldX_val (op : Word) : (fieldX op).val = ((op &&& 0x0F00#16) >>> 8).toNat := by
  simp only [BitVec.toNat_ushiftRight, BitVec.toNat_and, Nat.shiftRight_and_distrib]
  exact (Nat.and_two_pow_sub_one_eq_mod _ 4).symm

theorem fieldY_val (op : Word) : (fieldY op).val = ((op &&& 0x00F0#16) >>> 4).toNat := by
  simp only [BitVec.toNat_ushiftRight, BitVec.toNat_and, Nat.shiftRight_and_distrib]
  exact (Nat.and_two_pow_sub_one_eq_mod _ 4).symm

theorem fieldN_val (op : Word) : (fieldN op).val = (op &&& 0x000F#16).toNat :=
  (Nat.and_two_pow_sub_one_eq_mod op.toNat 4).symm

theorem fieldNN_toNat (op : Word) : (fieldNN op).toNat = (op &&& 0x00FF#16).toNat :=
  (Nat.and_two_pow_sub_one_eq_mod op.toNat 8).symm

theorem fieldNNN_toNat (op : Word) : (fieldNNN op).toNat = (op &&& 0x0FFF#16).toNat :=
  (Nat.and_two_pow_sub_one_eq_mod op.toNat 12).symm

/-- Settles O4: the word is the encoding of the instruction, so it packs the operands as `h nnn`, `h x nn` or `h x y n`,
and the fields of such a word are the operands. -/
theorem operandsAreTheFieldsOfTheWord : Obligations.OperandsAreTheFieldsOfTheWord := by
  intro op i hd
  obtain rfl : encode i = op := encode_of_decodeWord hd
  refine ⟨fun nnn hi => ?_, fun x nn hi => ?_, fun x y hi => ?_, fun x y n hi => ?_, fun x hi => ?_⟩
  · obtain ⟨h, hw⟩ : ∃ h, encode i = packAddr h nnn := by
      rcases hi with rfl | rfl | rfl | rfl <;> exact ⟨_, rfl⟩
    rw [hw, ← fieldNNN_toNat, fieldNNN_packAddr]
  · obtain ⟨h, hw⟩ : ∃ h, encode i = packImm h x nn := by
      rcases hi with rfl | rfl | rfl | rfl | rfl <;> exact ⟨_, rfl⟩
    rw [hw, ← fieldX_val, ← fieldNN_toNat, fieldX_packImm, fieldNN_packImm]
    exact ⟨rfl, rfl⟩
  · obtain ⟨h, n, hw⟩ : ∃ h n, encode i = packRegs h x y n := by
      rcases hi with rfl | rfl | rfl | rfl | rfl | rfl | rfl | rfl | rfl | rfl | rfl <;> exact ⟨_, _, rfl⟩
    rw [hw, ← fieldX_val, ← fieldY_val, fieldX_packRegs, fieldY_packRegs]
    exact ⟨rfl, rfl⟩
  · subst hi
    rw [encode, ← fieldX_val, ← fieldY_val, ← fieldN_val, fieldX_packRegs, fieldY_packRegs, fieldN_packRegs]
    exact ⟨rfl, rfl, rfl⟩
  · obtain ⟨h, nn, hw⟩ : ∃ h nn, encode i = packImm h x nn := by
      rcases hi with rfl | rfl | rfl | rfl | rfl | rfl | rfl | rfl | rfl | rfl | rfl <;> exact ⟨_, _, rfl⟩
    rw [hw, ← fieldX_val, fieldX_packImm]

/-- Settles O5: each accepted sample is the word of its instruction, and the two others are computed. -/
theorem sampleWordsDecode : Obligations.SampleWordsDecode :=
  ⟨decodeWord_encode .cls, decodeWord_encode (.drw 1 2 5), decodeWord_encode (.call 0xABC),
    decodeWord_encode (.seReg 1 2), decodeWord_encode (.ldImm 10 0x0F), decodeWord_encode (.shr 10 11),
    decodeWord_encode (.sknp 4), decodeWord_encode (.ldVxK 5), decodeWord_encode (.ldI 0x123),
    decodeWord_encode (.loadRegs 14), by decide, by decide⟩

end Sys2Proof
end

section
/-! PROOF. O24 to O26: 00E0 and Dxyn. What a Dxyn in range leaves is said once (`State.afterDraw`): its pixels by
`pixel_afterDraw`, its VF by `flag_afterDraw_of_erased` and `flag_afterDraw_of_none_erased`. -/

namespace Sys2Proof.Machine

/-- Settles O24: the frame is that of the three setters, and a blank framebuffer has no pixel set. -/
theorem clearScreenBlanksFramebuffer : Obligations.ClearScreenBlanksFramebuffer := by
  intro s
  exact ⟨_, rfl, fun c r => Framebuffer.pixel_blank c r, by simp [State.SameRegsBut, State.SameBut, State.SameMemory]⟩

/-- The framebuffer and the collision flag that Dxyn computes from `s` (40_display.md R101). -/
def State.drawn (s : State) (x y : Reg) (n : Fin 16) : Canvas :=
  Canvas.drawSprite (s.fb, false) (s.reg x).toNat (s.reg y).toNat (s.bytesAtI n.val)

/-- The state that Dxyn leaves when every sprite byte is in memory. -/
def State.afterDraw (s : State) (x y : Reg) (n : Fin 16) : State :=
  (((s.setFb (s.drawn x y n).1).setDirty true).setFlag (s.drawn x y n).2).advance

/-- The rows at I cover the pixels that the statements call under the sprite (R102, R103). -/
theorem covers_bytesAtI (s : State) (x y : Reg) (n : Fin 16) (c : Fin 64) (r : Fin 32) :
    Canvas.Covers (s.bytesAtI n.val) (s.reg x).toNat (s.reg y).toNat c r ↔ s.UnderSprite x y n c r := by
  constructor
  · rintro ⟨j, b, hb, hr, k, hk, hbit, hc⟩
    obtain ⟨hj, rfl⟩ := List.getElem?_eq_some_iff.1 hb
    exact ⟨j, k, by simpa [State.bytesAtI] using hj, hk, by simpa [State.bytesAtI] using hbit, hc, hr⟩
  · rintro ⟨j, k, hj, hk, hbit, hc, hr⟩
    have hb : (s.bytesAtI n.val)[j]? = some (s.mem.read (s.I.toNat + j)) := by
      simp [State.bytesAtI, hj]
    exact ⟨j, _, hb, hr, k, hk, hbit, hc⟩

section
variable (s : State) (x y : Reg) (n : Fin 16)

theorem exec_drw (h : ∀ j, j < n.val → s.I.toNat + j ≤ 0xFFF) : exec (.drw x y n) s = .next (s.afterDraw x y n) :=
  if_pos ((inRange_iff _ _).2 h)

/-- `Canvas.drawSprite_spec` for the sprite at I, drawn from a clear collision flag; it has at most 15 rows. -/
theorem drawn_spec :
    (∀ c r, (s.drawn x y n).1.pixel c r = true ↔ (s.pixel c r = true ↔ ¬ s.UnderSprite x y n c r)) ∧
    ((s.drawn x y n).2 = true ↔ ∃ c r, s.UnderSprite x y n c r ∧ s.pixel c r = true) := by
  have hlen : (s.bytesAtI n.val).length ≤ 32 := by simp [State.bytesAtI]; omega
  simpa [covers_bytesAtI, State.drawn, State.pixel_eq] using
    Canvas.drawSprite_spec (s.bytesAtI n.val) (s.reg x).toNat (s.reg y).toNat (s.fb, false) hlen

/-- Only VF of the registers is written. -/
theorem reg_afterDraw {q : Reg} (hq : q ≠ 15) : (s.afterDraw x y n).reg q = s.reg q := by
  simp [State.afterDraw, hq]

/-- A pixel under the sprite is inverted, every other one is kept (R102). -/
theorem pixel_afterDraw (c : Fin 64) (r : Fin 32) :
    (s.afterDraw x y n).pixel c r = true ↔ (s.pixel c r = true ↔ ¬ s.UnderSprite x y n c r) :=
  (drawn_spec s x y n).1 c r

/-- The pixels that meet a set sprite bit are those that go from 1 to 0, so the collision flag says whether there is
one (R104). -/
theorem collision_iff_erased :
    (s.drawn x y n).2 = true ↔ ∃ c r, s.pixel c r = true ∧ (s.afterDraw x y n).pixel c r = false := by
  rw [(drawn_spec s x y n).2]
  refine exists_congr fun c => exists_congr fun r => ?_
  rw [and_comm, ← Bool.not_eq_true ((s.afterDraw x y n).pixel c r), pixel_afterDraw]
  exact and_congr_right fun hp => by simp [hp]

theorem flag_afterDraw_of_erased (h : ∃ c r, s.pixel c r = true ∧ (s.afterDraw x y n).pixel c r = false) :
    (s.afterDraw x y n).reg 15 = 1 := by
  simp [State.afterDraw, (collision_iff_erased s x y n).2 h]

theorem flag_afterDraw_of_none_erased (h : ∀ c r, s.pixel c r = true → (s.afterDraw x y n).pixel c r = true) :
    (s.afterDraw x y n).reg 15 = 0 := by
  have hno : ¬ (s.drawn x y n).2 = true := by
    rw [collision_iff_erased]
    rintro ⟨c, r, hp, hq⟩
    simp [h c r hp] at hq
  simp [State.afterDraw, hno]

end

/-- Settles O25: pixels and VF are those of `afterDraw`, and the frame is that of its setters. -/
theorem drawInvertsPixelsUnderSprite : Obligations.DrawInvertsPixelsUnderSprite := by
  intro x y n s h
  refine ⟨_, exec_drw s x y n h, fun c r hu => ?_, fun c r hu => ?_, flag_afterDraw_of_erased s x y n,
    flag_afterDraw_of_none_erased s x y n, rfl, rfl, fun q hq => reg_afterDraw s x y n (by simpa using hq), ?_⟩
  · rw [Bool.eq_iff_iff, pixel_afterDraw]
    simp [hu]
  · rw [Bool.eq_iff_iff, pixel_afterDraw]
    simp [hu]
  · simp [State.afterDraw, State.SameBut, State.SameMemory]

/-- With neither coordinate in VF a draw leaves all that places the sprite: memory, I and both coordinates. -/
theorem underSprite_afterDraw {x y : Reg} (hx : x ≠ 15) (hy : y ≠ 15) (s : State) (n : Fin 16) (c : Fin 64)
    (r : Fin 32) : (s.afterDraw x y n).UnderSprite x y n c r ↔ s.UnderSprite x y n c r := by
  rw [State.UnderSprite, reg_afterDraw s x y n hx, reg_afterDraw s x y n hy]
  rfl

/-- Inverting the same pixels twice restores every pixel. -/
theorem pixel_afterDraw_twice {x y : Reg} (hx : x ≠ 15) (hy : y ≠ 15) (s : State) (n : Fin 16) (c : Fin 64)
    (r : Fin 32) : ((s.afterDraw x y n).afterDraw x y n).pixel c r = s.pixel c r := by
  rw [Bool.eq_iff_iff, pixel_afterDraw, pixel_afterDraw, underSprite_afterDraw hx hy]
  tauto

/-- Settles O26: the second draw restores the pixels, so what it erases is what the first draw turned on. -/
theorem drawingTwiceRestoresFramebuffer : Obligations.DrawingTwiceRestoresFramebuffer := by
  intro x y n s hx hy h
  have hback := pixel_afterDraw_twice hx hy s n
  refine ⟨_, _, exec_drw s x y n h, exec_drw (s.afterDraw x y n) x y n h, Framebuffer.ext_pixel hback, ?_, ?_⟩
  · rintro ⟨c, r, hs, ht⟩
    exact flag_afterDraw_of_erased _ x y n ⟨c, r, ht, (hback c r).trans hs⟩
  · intro hoff
    refine flag_afterDraw_of_none_erased _ x y n fun c r ht => ?_
    rw [hback]
    by_contra hs
    simp [hoff c r (by simpa using hs)] at ht

end Sys2Proof.Machine
end

section
/-! PROOF. O28 to O33: the control flow. The frames of its two writes, pc alone and stack with pc, are said once; so are
the halt of a Step that meets a pc above 0xFFE, each case of 00EE and 2nnn, and the skip. -/

namespace Sys2Proof.Machine

/-! ### Frames -/

theorem setPc_frame (s : State) (p : Word) : s.SameRegsBut (s.setPc p) [] ∧ s.SameBut (s.setPc p) [.pc] := by
  simp [State.SameRegsBut, State.SameBut, State.SameMemory]

theorem setStack_setPc_frame (s : State) (k : List Word) (p : Word) :
    s.SameRegsBut ((s.setStack k).setPc p) [] ∧ s.SameBut ((s.setStack k).setPc p) [.stack, .pc] := by
  simp [State.SameRegsBut, State.SameBut, State.SameMemory]

/-! ### The fetch after a jump out of range (60_exceptions.md R204) -/

theorem step_of_pc_out_of_range {s : State} (hs : s.status = .running) (hl : s.latch = .none)
    (he : s.nextEvent = .step) (hp : 0xFFE < s.pc.toNat) :
    step s = .next (s.takeEvent.setStatus (.halted ⟨.fetchRange, s.pc, none⟩)) := by
  have hstep : step s = s.takeEvent.stepEvent := step_of_nextEvent he
  rcases stepEvent_cases s.takeEvent with ⟨hidle, -⟩ | ⟨-, -, -, hhalt⟩ | ⟨-, -, hin, -⟩ | ⟨-, -, hin, -⟩
  · simp [hs, hl] at hidle
  · rw [hstep, hhalt, State.fatal_def, takeEvent_pc]
  all_goals
    rw [takeEvent_pc] at hin
    omega

/-! ### 00EE and 2nnn by the stack they meet (41_control_flow.md R110, R112) -/

theorem exec_ret_of_cons {s : State} {a : Word} {rest : List Word} (h : s.stack = a :: rest) :
    exec .ret s = .next ((s.setStack rest).setPc (a + 2)) := by
  simp [exec, execRet, h]

theorem exec_ret_of_nil {s : State} (h : s.stack = []) :
    exec .ret s = .next (s.fatal .stackUnderflow (some (encode .ret))) := by
  simp [exec, execRet, h]

theorem exec_call_of_room (nnn : Addr12) {s : State} (h : s.stack.length < s.cfg.stackDepth) :
    exec (.call nnn) s = .next ((s.setStack (s.pc :: s.stack)).setPc (address nnn)) :=
  if_pos h

theorem exec_call_of_full (nnn : Addr12) {s : State} (h : s.stack.length = s.cfg.stackDepth) :
    exec (.call nnn) s = .next (s.fatal .stackOverflow (some (encode (.call nnn)))) :=
  if_neg h.not_lt

/-- The word of 2nnn as a number: the family and the address share no bit. -/
theorem encode_call (nnn : Addr12) : encode (.call nnn) = BitVec.ofNat 16 (0x2000 + nnn.toNat) := by
  have hlt : nnn.toNat < 2 ^ 12 := nnn.isLt
  apply BitVec.eq_of_toNat_eq
  calc (packAddr 0x2 nnn).toNat = 2 <<< 12 ||| nnn.toNat := BitVec.toNat_append _ _
    _ = 0x2000 + nnn.toNat := (Nat.shiftLeft_add_eq_or_of_lt hlt 2).symm
    _ = (BitVec.ofNat 16 (0x2000 + nnn.toNat)).toNat := by
      rw [BitVec.toNat_ofNat]
      omega

/-! ### The skips and Bnnn (41_control_flow.md R113 to R117) -/

/-- What an instruction does that answers by a skip whose decided condition is `P`. -/
theorem next_of_skipIf {r : Result} {s : State} {c : Bool} {P : Prop} [Decidable P] (hr : r = .next (s.skipIf c))
    (hc : c = true ↔ P) :
    ∃ t, r = .next t ∧ t.pc = (if P then s.pc + 4 else s.pc + 2) ∧ s.SameRegsBut t [] ∧ s.SameBut t [.pc] :=
  ⟨_, hr, if_congr hc rfl rfl, setPc_frame s _⟩

/-- A register's value and an address add up without a carry out of 16 bits. -/
theorem toNat_extend_add_address (v : Byte) (nnn : Addr12) :
    (extend v + address nnn).toNat = v.toNat + nnn.toNat := by
  rw [BitVec.toNat_add, toNat_extend, toNat_address]
  omega

/-! ### The obligations -/

/-- Settles O28, by the two stacks that 00EE can meet. -/
theorem returnContinuesAfterTheCall : Obligations.ReturnContinuesAfterTheCall := by
  intro s
  constructor
  · intro a rest h
    exact ⟨_, exec_ret_of_cons h, rfl, rfl, setStack_setPc_frame s rest (a + 2)⟩
  · exact exec_ret_of_nil

/-- Settles O29: only pc is written, and 0xFFF is out of range for the fetch that comes next. -/
theorem jumpSetsPc : Obligations.JumpSetsPc := by
  intro nnn s
  obtain ⟨hregs, hbut⟩ := setPc_frame s (address nnn)
  refine ⟨_, rfl, toNat_address nnn, hregs, hbut, ?_⟩
  rintro rfl hs hl he
  exact step_of_pc_out_of_range hs hl he (show 0xFFE < (address 0xFFF).toNat by decide)

/-- Settles O30, by whether the stack has room; the word in the diagnostic is that of `encode_call`. -/
theorem callPushesItsAddress : Obligations.CallPushesItsAddress := by
  intro nnn s
  constructor
  · intro hroom
    exact ⟨_, exec_call_of_room nnn hroom, rfl, toNat_address nnn, setStack_setPc_frame s _ _⟩
  · intro hfull
    rw [exec_call_of_full nnn hfull, encode_call]
    rfl

/-- Settles O31: the return meets the stack that the call has pushed its address on. -/
theorem callThenReturnRoundTrip : Obligations.CallThenReturnRoundTrip := by
  intro nnn s hroom
  refine ⟨_, exec_call_of_room nnn hroom, fun u hu => ?_⟩
  have hpop : u.stack = s.pc :: s.stack := hu
  exact ⟨_, exec_ret_of_cons hpop, rfl, rfl⟩

/-- Settles O32: each skip is `skipIf` of its condition as a Boolean. -/
theorem skipsFollowTheirCondition : Obligations.SkipsFollowTheirCondition :=
  fun _ _ _ _ => ⟨next_of_skipIf rfl beq_iff_eq, next_of_skipIf rfl bne_iff_ne, next_of_skipIf rfl beq_iff_eq,
    next_of_skipIf rfl bne_iff_ne⟩

/-- Settles O33: the sum fits 16 bits, so pc holds it, and above 0xFFE it is out of range for the fetch that comes
next. -/
theorem computedJumpAddsV0 : Obligations.ComputedJumpAddsV0 := by
  intro nnn s
  have hsum := toNat_extend_add_address (s.reg 0) nnn
  obtain ⟨hregs, hbut⟩ := setPc_frame s (extend (s.reg 0) + address nnn)
  refine ⟨_, rfl, hsum, hregs, hbut, fun hbig hs hl he => ?_⟩
  exact step_of_pc_out_of_range hs hl he (hsum.symm ▸ hbig)

end Sys2Proof.Machine
end

section
/-! PROOF. O34 to O41: the register and arithmetic-logic instructions. An instruction without a flag answers
`(s.setReg x v).advance`, one with a flag answers `(s.setRegFlag x v b).advance`; what each leaves is said once, and
each flag and each result is the number that the statements give it. -/

namespace Sys2Proof.Machine

/-! ### A register write and the move to the next instruction (10_state.md R21, R27) -/

section
variable (s : State) (x : Reg) (v : Byte)

theorem reg_advance_setReg : (s.setReg x v).advance.reg x = v := by
  simp

theorem advance_setReg_frame :
    (s.setReg x v).advance.pc = s.pc + 2 ∧ s.SameRegsBut (s.setReg x v).advance [x] ∧
      s.SameBut (s.setReg x v).advance [.pc] := by
  refine ⟨rfl, fun r hr => ?_, by simp [State.SameBut, State.SameMemory]⟩
  have hne : r ≠ x := by simpa using hr
  simp [hne]

end

/-! ### A register write and then the flag (42_alu.md R144) -/

section
variable (s : State) (x : Reg) (v : Byte) (b : Bool)

/-- The result stays in Vx unless Vx is VF, where the flag is written over it. -/
theorem reg_advance_setRegFlag {x : Reg} (hx : x ≠ 15) : (s.setRegFlag x v b).advance.reg x = v := by
  simp [hx]

theorem flag_advance_setRegFlag : ((s.setRegFlag x v b).advance.reg 15).toNat = b.toNat := by
  cases b <;> simp

theorem advance_setRegFlag_frame :
    (s.setRegFlag x v b).advance.pc = s.pc + 2 ∧ s.SameRegsBut (s.setRegFlag x v b).advance [x, 15] ∧
      s.SameBut (s.setRegFlag x v b).advance [.pc] := by
  refine ⟨rfl, fun r hr => ?_, by simp [State.SameBut, State.SameMemory]⟩
  obtain ⟨hne, hflag⟩ : r ≠ x ∧ r ≠ 15 := by simpa using hr
  simp [hne, hflag]

end

/-- What an instruction does that writes a result of value `n` and then a flag of value `f`. -/
theorem next_of_setRegFlag {r : Result} {s : State} {x : Reg} {v : Byte} {b : Bool} {n f : Nat}
    (hr : r = .next (s.setRegFlag x v b).advance) (hv : v.toNat = n) (hb : b.toNat = f) :
    ∃ t, r = .next t ∧ (x ≠ 15 → (t.reg x).toNat = n) ∧ (t.reg 15).toNat = f ∧ t.pc = s.pc + 2 ∧
      s.SameRegsBut t [x, 15] ∧ s.SameBut t [.pc] :=
  ⟨_, hr, fun hx => (congrArg _ (reg_advance_setRegFlag s v b hx)).trans hv,
    (flag_advance_setRegFlag s x v b).trans hb, advance_setRegFlag_frame s x v b⟩

/-! ### The flags and the results as numbers -/

section
variable (a b : Byte)

theorem toNat_carry : (carry a b).toNat = if a.toNat + b.toNat > 255 then 1 else 0 :=
  Bool.cond_decide _ _ _

theorem toNat_noBorrow : (noBorrow a b).toNat = if a.toNat ≥ b.toNat then 1 else 0 :=
  Bool.cond_decide _ _ _

/-- Bit 0 of a byte is its remainder by 2. -/
theorem toNat_shiftedOutRight : (shiftedOutRight a).toNat = a.toNat % 2 :=
  (Nat.toNat_testBit a.toNat 0).trans (by rw [pow_zero, Nat.div_one])

/-- Bit 7 of a byte is its quotient by 128, since nothing is above it. -/
theorem toNat_shiftedOutLeft : (shiftedOutLeft a).toNat = a.toNat / 128 :=
  (Nat.toNat_testBit a.toNat 7).trans (Nat.mod_eq_of_lt (by omega))

/-- A difference of bytes, with 256 lent to the minuend before the subtraction. -/
theorem toNat_sub_byte : (a - b).toNat = (a.toNat + 256 - b.toNat) % 256 := by
  rw [BitVec.toNat_sub']
  omega

theorem toNat_shiftRight_one : (a >>> 1).toNat = a.toNat / 2 := by
  rw [BitVec.toNat_ushiftRight, Nat.shiftRight_one]

theorem toNat_shiftLeft_one : (a <<< 1).toNat = (2 * a.toNat) % 256 := by
  rw [BitVec.toNat_shiftLeft, Nat.shiftLeft_eq, pow_one, Nat.mul_comm]

end

/-! ### The obligations -/

/-- Settles O34: 6xnn is one register write. -/
theorem loadImmediateSetsRegister : Obligations.LoadImmediateSetsRegister :=
  fun x nn s => ⟨_, rfl, reg_advance_setReg s x nn, advance_setReg_frame s x nn⟩

/-- Settles O35: 7xnn is one register write, so VF is written only as the destination. -/
theorem addImmediateLeavesFlag : Obligations.AddImmediateLeavesFlag := by
  intro x nn s
  refine ⟨_, rfl, ?_, advance_setReg_frame s x (s.reg x + nn)⟩
  rw [reg_advance_setReg, BitVec.toNat_add]

/-- Settles O36: 8xy0 is one register write. -/
theorem loadRegisterCopies : Obligations.LoadRegisterCopies :=
  fun x y s => ⟨_, rfl, reg_advance_setReg s x (s.reg y), advance_setReg_frame s x (s.reg y)⟩

/-- Settles O37: each of the three is one register write, of a value whose bits are those of the operands combined. -/
theorem logicOperationsAreBitwise : Obligations.LogicOperationsAreBitwise := by
  intro x y s
  refine ⟨⟨_, rfl, fun k => ?_, advance_setReg_frame s x (s.reg x ||| s.reg y)⟩,
    ⟨_, rfl, fun k => ?_, advance_setReg_frame s x (s.reg x &&& s.reg y)⟩,
    ⟨_, rfl, fun k => ?_, advance_setReg_frame s x (s.reg x ^^^ s.reg y)⟩⟩
  · rw [reg_advance_setReg, BitVec.getLsbD_or]
  · rw [reg_advance_setReg, BitVec.getLsbD_and]
  · rw [reg_advance_setReg, BitVec.getLsbD_xor]

/-- Settles O38: the sum of bytes with its carry. -/
theorem addRegistersSetsCarry : Obligations.AddRegistersSetsCarry :=
  fun x y s => next_of_setRegFlag rfl (BitVec.toNat_add (s.reg x) (s.reg y)) (toNat_carry (s.reg x) (s.reg y))

/-- Settles O39: one difference of bytes with its no-borrow, the operands exchanged for 8xy7. -/
theorem subtractionsSetNoBorrow : Obligations.SubtractionsSetNoBorrow := by
  intro x y s
  constructor
  · exact next_of_setRegFlag rfl (toNat_sub_byte (s.reg x) (s.reg y)) (toNat_noBorrow (s.reg x) (s.reg y))
  · exact next_of_setRegFlag rfl (toNat_sub_byte (s.reg y) (s.reg x)) (toNat_noBorrow (s.reg y) (s.reg x))

/-- Settles O40: the operand that the statement names is `State.shiftOperand`, for both values of the parameter. -/
theorem shiftsMoveOneBitIntoFlag : Obligations.ShiftsMoveOneBitIntoFlag := by
  intro x y s a ha
  obtain rfl : a = s.shiftOperand x y := ha
  constructor
  · exact next_of_setRegFlag rfl (toNat_shiftRight_one _) (toNat_shiftedOutRight _)
  · exact next_of_setRegFlag rfl (toNat_shiftLeft_one _) (toNat_shiftedOutLeft _)

/-- Settles O41: the frame is that of the register write with the draw counted; a bit outside nn is masked away. -/
theorem randomByteIsMasked : Obligations.RandomByteIsMasked := by
  intro x nn s
  obtain ⟨hpc, hregs, -⟩ := advance_setReg_frame s x (Config.draw8 s.draws &&& nn)
  have hreg := reg_advance_setReg s x (Config.draw8 s.draws &&& nn)
  refine ⟨_, rfl, hreg, fun k hk => ?_, rfl, hpc, hregs, by simp [State.SameBut, State.SameMemory]⟩
  exact (congrArg (·.getLsbD k) hreg).trans (by rw [BitVec.getLsbD_and, hk, Bool.and_false])

end Sys2Proof.Machine
end

section
/-! PROOF. O42 to O44: the key and timer instructions. Ex9E and ExA1 answer by what the value of Vx is as a key index,
said once for each; a Step that finds a key wait pending is idle. -/

namespace Sys2Proof.Machine

/-! ### Ex9E and ExA1 by the key index in Vx (43_keys_timers.md R150, R151, R156) -/

section
variable {x : Reg} {s : State}

theorem exec_skp_of_key {k : Key} (h : (s.reg x).toNat = k.val) :
    exec (.skp x) s = .next (s.skipIf (s.keyPressed k)) := by
  simp only [exec, execSkp, (keyIndex_eq_some _ k).2 h]

theorem exec_sknp_of_key {k : Key} (h : (s.reg x).toNat = k.val) :
    exec (.sknp x) s = .next (s.skipIf (!s.keyPressed k)) := by
  simp only [exec, execSknp, (keyIndex_eq_some _ k).2 h]

theorem exec_skp_of_no_key (h : 0xF < (s.reg x).toNat) :
    exec (.skp x) s = .next (s.fatal .keyRange (some (encode (.skp x)))) := by
  simp only [exec, execSkp, (keyIndex_eq_none _).2 h]

theorem exec_sknp_of_no_key (h : 0xF < (s.reg x).toNat) :
    exec (.sknp x) s = .next (s.fatal .keyRange (some (encode (.sknp x)))) := by
  simp only [exec, execSknp, (keyIndex_eq_none _).2 h]

end

/-! ### Frames of the timer writes and of the latch write (43_keys_timers.md R153 to R155) -/

section
variable (s : State)

theorem advance_setDT_frame (v : Byte) :
    s.SameRegsBut (s.setDT v).advance [] ∧ s.SameBut (s.setDT v).advance [.DT, .pc] := by
  simp [State.SameRegsBut, State.SameBut, State.SameMemory]

theorem advance_setST_frame (v : Byte) :
    s.SameRegsBut (s.setST v).advance [] ∧ s.SameBut (s.setST v).advance [.ST, .pc] := by
  simp [State.SameRegsBut, State.SameBut, State.SameMemory]

theorem setLatch_frame (l : Latch) : s.SameRegsBut (s.setLatch l) [] ∧ s.SameBut (s.setLatch l) [.latch] := by
  simp [State.SameRegsBut, State.SameBut, State.SameMemory]

end

/-- While a key wait is pending, a Step only takes its event (60_exceptions.md R221). -/
theorem step_of_wait {s : State} {x : Reg} (hl : s.latch = .await x) (he : s.nextEvent = .step) :
    step s = .next s.takeEvent := by
  have hstep : step s = s.takeEvent.stepEvent := step_of_nextEvent he
  rcases stepEvent_cases s.takeEvent with ⟨-, hidle⟩ | ⟨-, hnone, -⟩ | ⟨-, hnone, -⟩ | ⟨-, hnone, -⟩
  · exact hstep.trans hidle
  all_goals simp [hl] at hnone

/-! ### The obligations -/

/-- Settles O42: a key code selects one key, whose state decides both skips; above 0xF there is no key index and both
halt. -/
theorem keySkipsSampleTheKey : Obligations.KeySkipsSampleTheKey := by
  intro x s
  constructor
  · intro k hk
    exact ⟨next_of_skipIf (exec_skp_of_key hk) Iff.rfl,
      next_of_skipIf (exec_sknp_of_key hk) (Bool.not_eq_true' _).to_iff⟩
  · intro hbig
    exact ⟨exec_skp_of_no_key hbig, exec_sknp_of_no_key hbig⟩

/-- Settles O43: Fx07 is one register write, Fx15 and Fx18 are one timer write each. -/
theorem timerTransfers : Obligations.TimerTransfers := by
  intro x s
  refine ⟨⟨_, rfl, ?_⟩, ⟨_, rfl, ?_⟩, ⟨_, rfl, ?_⟩⟩
  · exact ⟨reg_advance_setReg s x s.DT, advance_setReg_frame s x s.DT⟩
  · exact ⟨rfl, rfl, advance_setDT_frame s (s.reg x)⟩
  · exact ⟨rfl, rfl, advance_setST_frame s (s.reg x)⟩

/-- Settles O44: Fx0A is one latch write, whatever keys are held, and a Step that comes next finds the wait pending. -/
theorem waitKeySetsLatchAndKeepsPc : Obligations.WaitKeySetsLatchAndKeepsPc := by
  intro x s
  obtain ⟨hregs, hbut⟩ := setLatch_frame s (.await x)
  exact ⟨_, rfl, rfl, hregs, hbut, step_of_wait rfl⟩

end Sys2Proof.Machine
end

section
/-! PROOF. O27 and O45 to O50: the address register and memory. Which instructions access memory at I is said once
(`AccessesAtI`), and so is what each answers in and out of range; the frames of a write of I and of a store follow, and
what is read back from a store. -/

namespace Sys2Proof.Machine

/-! ### Accesses based at I (44_index_memory.md R163) -/

/-- Instruction `i` accesses the `len` addresses from I on: the four forms of R163, Fx33 only where it is known. -/
def AccessesAtI (s : State) (i : Instr) (len : Nat) : Prop :=
  (∃ x y n, i = .drw x y n ∧ len = n.val) ∨ (∃ x, i = .ldB x ∧ s.cfg.hasFx33 = true ∧ len = 3) ∨
    (∃ x, i = .storeRegs x ∧ len = x.val + 1) ∨ (∃ x, i = .loadRegs x ∧ len = x.val + 1)

/-- All four forms check the whole range before anything else. -/
theorem exec_of_not_inRange {s : State} {i : Instr} {len : Nat} (hi : AccessesAtI s i len)
    (hr : ¬ inRange s.I.toNat len = true) : exec i s = .next (s.fatal .memRange (some (encode i))) := by
  rcases hi with ⟨x, y, n, rfl, rfl⟩ | ⟨x, rfl, hf, rfl⟩ | ⟨x, rfl, rfl⟩ | ⟨x, rfl, rfl⟩
  · exact if_neg hr
  · exact (if_pos hf).trans (if_neg hr)
  · exact if_neg hr
  · exact if_neg hr

/-- Only Annn, Fx1E and Fx29 write I (O19), and none of them accesses memory. -/
theorem I_eq_of_accessesAtI {s t : State} {i : Instr} {len : Nat} (hi : AccessesAtI s i len)
    (h : exec i s = .next t) : t.I = s.I := by
  by_contra hne
  rcases (instructionsWriteOnlyTheirState i s t h).1 hne with ⟨nnn, rfl⟩ | ⟨x, rfl | rfl⟩ <;>
    simp [AccessesAtI] at hi

/-- `n + 1` addresses are in range when the last of them is. -/
theorem inRange_of_last {base n : Nat} (h : base + n ≤ 0xFFF) : inRange base (n + 1) = true :=
  (inRange_iff base (n + 1)).2 fun k hk => by omega

section
variable {s : State} {x : Reg}

theorem exec_ldB_of_inRange (hf : s.cfg.hasFx33 = true) (h : s.I.toNat + 2 ≤ 0xFFF) :
    exec (.ldB x) s = .next (s.setMem (s.mem.writeBytes s.I.toNat (decimalDigits (s.reg x)))).advance :=
  (if_pos hf).trans (if_pos (inRange_of_last h))

theorem exec_ldB_of_unknown (hf : s.cfg.hasFx33 = false) :
    exec (.ldB x) s = .next (s.fatal .unknownOpcode (some (encode (.ldB x)))) :=
  if_neg (by simp [hf])

theorem exec_storeRegs_of_inRange (h : s.I.toNat + x.val ≤ 0xFFF) :
    exec (.storeRegs x) s = .next (s.setMem (s.mem.writeBytes s.I.toNat (s.regsUpTo x))).advance :=
  if_pos (inRange_of_last h)

theorem exec_loadRegs_of_inRange (h : s.I.toNat + x.val ≤ 0xFFF) :
    exec (.loadRegs x) s = .next (s.setV (s.loadedRegs x)).advance :=
  if_pos (inRange_of_last h)

end

/-! ### Frames -/

section
variable (s : State)

theorem advance_setI_frame (j : Word) :
    (s.setI j).advance.pc = s.pc + 2 ∧ s.SameRegsBut (s.setI j).advance [] ∧
      s.SameBut (s.setI j).advance [.I, .pc] := by
  simp [State.SameRegsBut, State.SameBut, State.SameMemory]

theorem advance_setI_setFlag_frame (j : Word) (b : Bool) :
    ((s.setI j).setFlag b).advance.pc = s.pc + 2 ∧ s.SameRegsBut ((s.setI j).setFlag b).advance [15] ∧
      s.SameBut ((s.setI j).setFlag b).advance [.I, .pc] := by
  refine ⟨rfl, fun r hr => ?_, by simp [State.SameBut, State.SameMemory]⟩
  have hne : r ≠ 15 := by simpa using hr
  simp [hne]

theorem advance_setMem_frame (m : Memory) :
    (s.setMem m).advance.pc = s.pc + 2 ∧ s.SameRegsBut (s.setMem m).advance [] ∧
      s.SameBut (s.setMem m).advance [.mem, .pc] := by
  simp [State.SameRegsBut, State.SameBut, State.SameMemory]

theorem advance_setV_frame (v : Vector Byte 16) :
    (s.setV v).advance.pc = s.pc + 2 ∧ s.SameBut (s.setV v).advance [.pc] := by
  simp [State.SameBut, State.SameMemory]

end

/-! ### The new values of I (44_index_memory.md R161, R162) -/

/-- Five times a byte fits 16 bits, so I holds the product whatever Vx is. -/
theorem toNat_extend_mul_five (v : Byte) : (extend v * 5).toNat = v.toNat * 5 := by
  rw [BitVec.toNat_mul, toNat_extend]
  exact Nat.mod_eq_of_lt (show v.toNat * 5 < 2 ^ 16 by omega)

theorem toNat_indexSum (j : Word) (v : Byte) : (indexSum j v).toNat = (j.toNat + v.toNat) % 0x1000 := by
  rw [indexSum, BitVec.toNat_ofNat]
  omega

theorem toNat_indexOverflow (j : Word) (v : Byte) :
    (indexOverflow j v).toNat = if j.toNat + v.toNat > 0xFFF then 1 else 0 :=
  Bool.cond_decide _ _ _

/-! ### What is read back from a store (44_index_memory.md R164, R165) -/

@[simp] theorem length_decimalDigits (v : Byte) : (decimalDigits v).length = 3 := rfl

/-- Each digit fits a byte, so its byte holds it. -/
theorem toNat_decimalDigits (v : Byte) :
    (decimalDigits v)[0].toNat = v.toNat / 100 ∧ (decimalDigits v)[1].toNat = v.toNat / 10 % 10 ∧
      (decimalDigits v)[2].toNat = v.toNat % 10 := by
  refine ⟨Nat.mod_eq_of_lt ?_, Nat.mod_eq_of_lt ?_, Nat.mod_eq_of_lt ?_⟩ <;> omega

section
variable {s : State} {x : Reg}

theorem read_storedDigits (hm : s.mem.wf = true) (h : s.I.toNat + 2 ≤ 0xFFF) {k : Nat} (hk : k < 3) :
    (s.mem.writeBytes s.I.toNat (decimalDigits (s.reg x))).read (s.I.toNat + k) = (decimalDigits (s.reg x))[k] :=
  Memory.read_writeBytes_inside (vs := decimalDigits (s.reg x)) hm (Nat.succ_le_succ h) k hk

theorem read_storedRegs (hm : s.mem.wf = true) (h : s.I.toNat + x.val ≤ 0xFFF) {k : Reg} (hk : k ≤ x) :
    (s.mem.writeBytes s.I.toNat (s.regsUpTo x)).read (s.I.toNat + k.val) = s.reg k := by
  have hlen : k.val < (s.regsUpTo x).length := by rw [State.length_regsUpTo]; exact Nat.lt_succ_of_le hk
  have hin : s.I.toNat + (s.regsUpTo x).length ≤ memSize := by rw [State.length_regsUpTo]; exact Nat.succ_le_succ h
  rw [Memory.read_writeBytes_inside hm hin k.val hlen, State.getElem_regsUpTo]

end

/-! ### The obligations -/

/-- Settles O27: the address that passes 0xFFF fails the range check, and no access based at I writes I. -/
theorem outOfRangeAccessHaltsAndWritesNothing : Obligations.OutOfRangeAccessHaltsAndWritesNothing := by
  intro s i len hi
  refine ⟨?_, fun t h => I_eq_of_accessesAtI hi h⟩
  rintro ⟨k, hk, hbig⟩
  exact exec_of_not_inRange hi fun hr => (((inRange_iff _ _).1 hr k hk).trans_lt hbig).false

/-- Settles O45: Annn and Fx29 are one write of I each. -/
theorem indexLoads : Obligations.IndexLoads := by
  intro x nnn s
  constructor
  · exact ⟨_, rfl, toNat_address nnn, advance_setI_frame s (address nnn)⟩
  · exact ⟨_, rfl, toNat_extend_mul_five (s.reg x), advance_setI_frame s (extend (s.reg x) * 5)⟩

/-- Settles O46: a write of I and then the flag, both of the sum of the old I and Vx. -/
theorem addToIndexWrapsAndFlags : Obligations.AddToIndexWrapsAndFlags := by
  intro x s
  refine ⟨_, rfl, toNat_indexSum s.I (s.reg x), ?_,
    advance_setI_setFlag_frame s (indexSum s.I (s.reg x)) (indexOverflow s.I (s.reg x))⟩
  rw [← toNat_indexOverflow]
  cases indexOverflow s.I (s.reg x) <;> simp

/-- Settles O47: each digit is read back from its own place; without Fx33 the word is unknown. -/
theorem decimalStoreWritesThreeDigits : Obligations.DecimalStoreWritesThreeDigits := by
  intro x s
  refine ⟨fun hf hm h => ?_, exec_ldB_of_unknown⟩
  obtain ⟨hhundreds, htens, hones⟩ := toNat_decimalDigits (s.reg x)
  refine ⟨_, exec_ldB_of_inRange hf h, ?_, ?_, ?_, fun a ha => ?_, advance_setMem_frame s _⟩
  · exact (congrArg _ (read_storedDigits hm h (k := 0) (by decide))).trans hhundreds
  · exact (congrArg _ (read_storedDigits hm h (k := 1) (by decide))).trans htens
  · exact (congrArg _ (read_storedDigits hm h (k := 2) (by decide))).trans hones
  · exact Memory.read_writeBytes_of_outside (by rw [length_decimalDigits]; omega)

/-- Settles O48: the bytes written are the registers up to Vx, and a byte outside them is kept. -/
theorem registerStoreWritesMemory : Obligations.RegisterStoreWritesMemory := by
  intro x s hm h
  refine ⟨_, exec_storeRegs_of_inRange h, fun k hk => read_storedRegs hm h hk, fun a ha => ?_,
    advance_setMem_frame s _⟩
  exact Memory.read_writeBytes_of_outside (by rw [State.length_regsUpTo]; omega)

/-- Settles O49: Fx65 is one write of the register file, with the bytes at I up to Vx. -/
theorem registerLoadReadsMemory : Obligations.RegisterLoadReadsMemory :=
  fun x s h => ⟨_, exec_loadRegs_of_inRange h, State.reg_setV_loadedRegs s x, advance_setV_frame s (s.loadedRegs x)⟩

/-- Settles O50: the store leaves I, so the load reads each register back from the byte it was stored in. -/
theorem storeThenLoadRestoresRegisters : Obligations.StoreThenLoadRestoresRegisters := by
  intro x s u hm h
  obtain ⟨t, ht, hstored, -, -, -, hbut⟩ := registerStoreWritesMemory x s hm h
  have htI : t.I = s.I := hbut.1 (by decide)
  refine ⟨t, ht, fun hmem hI => ?_⟩
  have huI : u.I = s.I := hI.trans htI
  obtain ⟨v, hv, hloaded, -⟩ := registerLoadReadsMemory x u (huI ▸ h)
  refine ⟨v, hv, fun k hk => ?_⟩
  rw [hloaded, if_pos hk, hmem, huI, hstored k hk]

end Sys2Proof.Machine
end

section
/-! PROOF. O6, O14, O16 and O7: every step answers a next state (`exists_step`), so that a run is an induction over its
steps (`run_induction`), and what is to come of a state's events after k of them is said once (`EventsTaken`). -/

namespace Sys2Proof.Machine

/-- Settles O6: the four laws of `nextEvent` and `takeEvent`, and `step` by definition. -/
theorem stepDeliversTheNextEvent : Obligations.StepDeliversTheNextEvent := by
  intro s
  refine ⟨fun e rest h => ?_, fun h => ?_, fun e => ?_, rfl⟩
  · exact ⟨nextEvent_of_cons h, takeEvent_of_cons h⟩
  · exact ⟨nextEvent_of_nil h, takeEvent_of_nil h⟩
  · exact ⟨nextEvent_of_cons rfl, takeEvent_of_cons rfl⟩

/-! ### Every event has a next state -/

theorem exists_stepEvent (s : State) : ∃ t, s.stepEvent = .next t := by
  rcases stepEvent_cases s with ⟨-, he⟩ | ⟨-, -, -, he⟩ | ⟨-, -, -, -, he⟩ | ⟨-, -, -, i, -, he⟩
  · exact ⟨_, he⟩
  · exact ⟨_, he⟩
  · exact ⟨_, he⟩
  · obtain ⟨t, ht, -⟩ := exec_effect i s
    exact ⟨t, he.trans ht⟩

theorem exists_deliver (s : State) (e : HostEvent) : ∃ t, s.deliver e = .next t := by
  cases e with
  | step => exact exists_stepEvent s
  | _ => exact ⟨_, rfl⟩

theorem exists_step (s : State) : ∃ t, step s = .next t :=
  exists_deliver s.takeEvent s.nextEvent

/-- Settles O14: only a Step executes an instruction, and `exec_effect` gives every instruction a next state. -/
theorem everyStepAnswersNextState : Obligations.EveryStepAnswersNextState :=
  exists_step

/-- Induction over the length of a run: what holds of no step, and of a step and a run of which it holds, holds of every
run whose start meets `P`. -/
theorem run_induction {P : Nat → State → Prop} {R : Nat → State → State → Prop} (hzero : ∀ s, P 0 s → R 0 s s)
    (hsucc : ∀ k s t, P (k + 1) s → step s = .next t → P k t ∧ ∀ u, R k t u → R (k + 1) s u) (k : Nat) (s : State)
    (hs : P k s) : ∃ u : State, Host.Core.run Sys2Proof.core k s = .next u ∧ R k s u := by
  induction k generalizing s with
  | zero => exact ⟨s, rfl, hzero s hs⟩
  | succ k ih =>
    obtain ⟨t, ht⟩ := exists_step s
    obtain ⟨hPt, hR⟩ := hsucc k s t hs ht
    obtain ⟨u, hu, hRu⟩ := ih t hPt
    exact ⟨u, (run_succ_of_next ht k).trans hu, hR u hRu⟩

/-! ### After the run has ended (60_exceptions.md R215) -/

theorem step_of_ended {s : State} (h : s.status ≠ .running) : step s = .next s.takeEvent :=
  deliver_of_ended (by rwa [takeEvent_status]) s.nextEvent

theorem takeEvent_toCoreState (s : State) : s.takeEvent.toCoreState = s.toCoreState := by
  rcases takeEvent_cases s with ⟨p, h⟩ | h <;> rw [h] <;> rfl

/-- Settles O16: each step of an ended run only takes its event, and leaves the run ended. -/
theorem endedRunsNeverChange : Obligations.EndedRunsNeverChange := by
  refine run_induction (P := fun _ s => s.status ≠ .running) (fun s _ => ⟨rfl, rfl, rfl, rfl⟩) ?_
  intro k s t hs ht
  obtain rfl : s.takeEvent = t := Host.Outcome.next.inj ((step_of_ended hs).symm.trans ht)
  exact ⟨by rwa [takeEvent_status], fun u hu => by simpa [takeEvent_toCoreState] using hu⟩

/-! ### What is to come of the host's events (60_exceptions.md R220) -/

/-- `t` has what is to come of the events of `s` once `k` of them have been taken, listed ones first. -/
def EventsTaken (k : Nat) (s t : State) : Prop :=
  t.pending = s.pending.drop k ∧ t.freeEvents = s.freeEvents + (k - s.pending.length)

theorem eventsTaken_zero (s : State) : EventsTaken 0 s s :=
  ⟨rfl, by simp⟩

theorem EventsTaken.add {s t u : State} {j k : Nat} (hst : EventsTaken j s t) (htu : EventsTaken k t u) :
    EventsTaken (j + k) s u := by
  obtain ⟨hpending, hfree⟩ := hst
  obtain ⟨hpending', hfree'⟩ := htu
  constructor
  · rw [hpending', hpending, List.drop_drop]
  · rw [hfree', hfree, hpending, List.length_drop]
    omega

theorem EventsTaken.eventAt {s t : State} {k : Nat} (h : EventsTaken k s t) (j : Nat) :
    t.eventAt j = s.eventAt (k + j) := by
  obtain ⟨hpending, hfree⟩ := h
  have hcount : k - s.pending.length + (j - (s.pending.length - k)) = k + j - s.pending.length := by omega
  simp only [State.eventAt, hpending, hfree, List.length_drop, List.getD_eq_getElem?_getD, List.getElem?_drop,
    Nat.add_assoc, hcount]

theorem eventsTaken_takeEvent (s : State) : EventsTaken 1 s s.takeEvent := by
  cases h : s.pending with
  | nil =>
    rw [takeEvent_of_nil h]
    simp [EventsTaken, h]
  | cons e rest =>
    rw [takeEvent_of_cons h]
    simp [EventsTaken, h]

/-- No instruction adds, drops or reorders events. -/
theorem Effect.eventsTaken {s t : State} {i : Instr} (e : Effect s i t) : EventsTaken 0 s t := by
  cases e with
  | _ => exact eventsTaken_zero s

theorem stepEvent_eventsTaken {s t : State} (h : s.stepEvent = .next t) : EventsTaken 0 s t := by
  rcases stepEvent_cases s with ⟨-, he⟩ | ⟨-, -, -, he⟩ | ⟨-, -, -, -, he⟩ | ⟨-, -, -, i, -, he⟩ <;> rw [he] at h
  · cases h; exact eventsTaken_zero s
  · cases h; exact eventsTaken_zero s
  · cases h; exact eventsTaken_zero s
  · exact (effect_of_exec h).eventsTaken

theorem State.SameBut.eventsTaken {s t : State} {w : List Part} (h : s.SameBut t w) : EventsTaken 0 s t := by
  obtain ⟨-, -, -, -, -, -, -, -, -, -, -, -, -, -, hpending, hfree⟩ := h
  exact ⟨hpending, by simpa using hfree⟩

theorem deliver_eventsTaken {s t : State} {e : HostEvent} (h : s.deliver e = .next t) : EventsTaken 0 s t := by
  by_cases hs : e = .step
  · subst hs
    exact stepEvent_eventsTaken h
  · rcases deliver_host_cases hs h with ⟨-, hbut⟩ | ⟨-, -, -, -, -, hbut⟩
    · exact hbut.eventsTaken
    · exact hbut.eventsTaken

/-- A step takes the one event it delivers. -/
theorem eventsTaken_of_step {s t : State} (h : step s = .next t) : EventsTaken 1 s t :=
  (eventsTaken_takeEvent s).add (deliver_eventsTaken h)

/-- Settles O7: a run of k steps takes k events, one a step. -/
theorem eventsComeInTheHostsOrder : Obligations.EventsComeInTheHostsOrder := by
  intro k s
  have hsucc : ∀ k s t, True → step s = .next t → True ∧ ∀ u, EventsTaken k t u → EventsTaken (k + 1) s u :=
    fun k s t _ hstep => ⟨trivial, fun u hu => Nat.add_comm 1 k ▸ (eventsTaken_of_step hstep).add hu⟩
  obtain ⟨t, hrun, ht⟩ := run_induction (P := fun _ _ => True) (fun s _ => eventsTaken_zero s) hsucc k s trivial
  have ⟨hpending, hfree⟩ := ht
  exact ⟨t, hrun, hpending, hfree, ht.eventAt⟩

end Sys2Proof.Machine
end

section
/-! PROOF. O52 to O55 and O8: the events other than Step. What each does in a running machine is one equation, the
writes of the timers and of a key are said once; none of the five halts the machine. -/

namespace Sys2Proof.Machine

/-! ### The events in a running machine (60_exceptions.md R222 to R228) -/

section
variable {s : State} (hs : s.status = .running)
include hs

theorem deliver_tick_of_running : s.deliver .tick =
    .next (((s.setTrace s.traceAfterTick).setDT (State.countDown s.DT)).setST (State.countDown s.ST)) := by
  simp only [State.deliver, State.tick, hs]

theorem deliver_keyDown_of_no_wait (hl : s.latch = .none) (k : Key) :
    s.deliver (.keyDown k) = .next (s.setKey k true) := by
  simp only [State.deliver, State.keyDown, hs, hl]

theorem deliver_keyDown_of_wait {x : Reg} (hl : s.latch = .await x) (k : Key) :
    s.deliver (.keyDown k) = .next ((s.setKey k true).resolveWait x k) := by
  simp only [State.deliver, State.keyDown, hs, hl]

theorem deliver_keyUp_of_running (k : Key) : s.deliver (.keyUp k) = .next (s.setKey k false) := by
  simp only [State.deliver, State.keyUp, hs]

theorem deliver_renderAck_of_running : s.deliver .renderAck = .next (s.setDirty false) := by
  simp only [State.deliver, State.renderAck, hs]

theorem deliver_stop_of_running : s.deliver .stop = .next (s.setStatus .stopped) := by
  simp only [State.deliver, State.stop, hs]

end

/-! ### What they write, and their frames -/

theorem toNat_countDown (t : Byte) : (State.countDown t).toNat = t.toNat - 1 := by
  unfold State.countDown
  split_ifs with h
  · rw [h]; rfl
  · have hpos : t.toNat ≠ 0 := fun h0 => h (BitVec.eq_of_toNat_eq h0)
    bv_omega

section
variable (s : State)

/-- A key write, once the event has been taken, changes that key and no other. -/
theorem getElem_setKey_takeEvent (k : Key) (b : Bool) (j : Key) :
    (s.takeEvent.setKey k b).key[j.val] = if j = k then b else s.key[j.val] :=
  calc (s.takeEvent.setKey k b).key[j.val] = if j = k then b else s.takeEvent.key[j.val] :=
        State.keyPressed_setKey s.takeEvent k j b
    _ = if j = k then b else s.key[j.val] := by rw [takeEvent_key]

theorem setKey_frame (k : Key) (b : Bool) :
    s.SameRegsBut (s.setKey k b) [] ∧ s.SameBut (s.setKey k b) [.key] := by
  simp [State.SameRegsBut, State.SameBut, State.SameMemory]

theorem resolveWait_frame (k : Key) (x : Reg) :
    s.SameRegsBut ((s.setKey k true).resolveWait x k) [x] ∧
      s.SameBut ((s.setKey k true).resolveWait x k) [.latch, .pc, .key] := by
  simp +contextual [State.resolveWait, State.SameRegsBut, State.SameBut, State.SameMemory]

theorem setTimers_frame (o : List Output) (d u : Byte) :
    s.SameRegsBut (((s.setTrace o).setDT d).setST u) [] ∧
      s.SameBut (((s.setTrace o).setDT d).setST u) [.DT, .ST, .trace] := by
  simp [State.SameRegsBut, State.SameBut, State.SameMemory]

theorem setDirty_frame (d : Bool) : s.SameRegsBut (s.setDirty d) [] ∧ s.SameBut (s.setDirty d) [.dirty] := by
  simp [State.SameRegsBut, State.SameBut, State.SameMemory]

theorem setStatus_frame (c : Status) : s.SameRegsBut (s.setStatus c) [] ∧ s.SameBut (s.setStatus c) [.status] := by
  simp [State.SameRegsBut, State.SameBut, State.SameMemory]

end

/-- A frame from the state with the event taken off, its registers compared with those before. -/
theorem frame_of_takeEvent {s t : State} {w : List Reg} {p : List Part}
    (h : s.takeEvent.SameRegsBut t w ∧ s.takeEvent.SameBut t p) : s.SameRegsBut t w ∧ s.takeEvent.SameBut t p :=
  h.imp_left fun hregs r hr => (hregs r hr).trans (takeEvent_reg s r)

/-! ### The obligations of one event -/

/-- Settles O52, by whether the machine is running. -/
theorem tickCountsDownAndBeeps : Obligations.TickCountsDownAndBeeps := by
  intro s he
  refine ⟨fun hs => ?_, step_of_ended⟩
  have hs' : s.takeEvent.status = .running := (takeEvent_status s).trans hs
  refine ⟨_, (step_of_nextEvent he).trans (deliver_tick_of_running hs'), ?_, ?_, ?_,
    frame_of_takeEvent (setTimers_frame s.takeEvent _ _ _)⟩
  · simp [toNat_countDown]
  · simp [toNat_countDown]
  · simp [State.traceAfterTick]

/-- Settles O53, by whether a wait is pending. -/
theorem keyPressMarksKeyAndResolvesWait : Obligations.KeyPressMarksKeyAndResolvesWait := by
  intro s k he hs
  have hs' : s.takeEvent.status = .running := (takeEvent_status s).trans hs
  have hkey := getElem_setKey_takeEvent s k true
  constructor
  · intro x hl
    have hl' : s.takeEvent.latch = .await x := (takeEvent_latch s).trans hl
    refine ⟨_, (step_of_nextEvent he).trans (deliver_keyDown_of_wait hs' hl' k), rfl, ?_, ?_, hkey,
      frame_of_takeEvent (resolveWait_frame s.takeEvent k x)⟩
    · simp [State.resolveWait]
      omega
    · simp [State.resolveWait]
  · intro hl
    have hl' : s.takeEvent.latch = .none := (takeEvent_latch s).trans hl
    exact ⟨_, (step_of_nextEvent he).trans (deliver_keyDown_of_no_wait hs' hl' k), hkey,
      frame_of_takeEvent (setKey_frame s.takeEvent k true)⟩

/-- Settles O54: each of the three events is one write. -/
theorem releaseAckAndStop : Obligations.ReleaseAckAndStop := by
  intro s hs
  have hs' : s.takeEvent.status = .running := (takeEvent_status s).trans hs
  refine ⟨fun k he => ?_, fun he => ?_, fun he => ?_⟩
  · exact ⟨_, (step_of_nextEvent he).trans (deliver_keyUp_of_running hs' k), getElem_setKey_takeEvent s k false,
      frame_of_takeEvent (setKey_frame s.takeEvent k false)⟩
  · exact ⟨_, (step_of_nextEvent he).trans (deliver_renderAck_of_running hs'), rfl,
      frame_of_takeEvent (setDirty_frame s.takeEvent false)⟩
  · exact ⟨_, (step_of_nextEvent he).trans (deliver_stop_of_running hs'), rfl,
      frame_of_takeEvent (setStatus_frame s.takeEvent .stopped)⟩

/-- Settles O55: a Step meets the wait, a tick is that of O52; only a key press ends the wait (O18), and every one does
(O53). -/
theorem keyWaitSuspendsOnlyTheEngine : Obligations.KeyWaitSuspendsOnlyTheEngine := by
  intro s x hs hl
  refine ⟨step_of_wait hl, fun he => ?_, fun t ht => ⟨fun hnone => ?_, ?_⟩⟩
  · obtain ⟨t, ht, hDT, hST, -, hregs, hbut⟩ := (tickCountsDownAndBeeps s he).1 hs
    have ⟨_, _, _, _, _, _, _, hlatch, _⟩ := hbut
    have hwait : t.latch = .await x := (hlatch (by decide)).trans ((takeEvent_latch s).trans hl)
    exact ⟨t, ht, hwait, hDT, hST, hregs, hbut⟩
  · obtain ⟨k, hk, -⟩ := keyWaitEndsOnlyAtKeyPress s t x hl ht (by simp [hnone])
    exact ⟨k, hk⟩
  · rintro ⟨k, hk⟩
    obtain ⟨u, hu, hnone, -⟩ := (keyPressMarksKeyAndResolvesWait s k hk hs).1 x hl
    obtain rfl : u = t := Host.Outcome.next.inj (hu.symm.trans ht)
    exact hnone

/-! ### Runs without a Step -/

/-- An event other than Step leaves the status alone, or it is a Stop. -/
theorem status_of_deliver_host {s t : State} {e : HostEvent} (he : e ≠ .step) (h : s.deliver e = .next t) :
    t.status = s.status ∨ t.status = .stopped := by
  by_cases hs : s.status = .running
  · cases e with
    | step => exact absurd rfl he
    | tick => cases (deliver_tick_of_running hs).symm.trans h; exact .inl rfl
    | keyDown k =>
      cases h
      rcases keyDown_cases s k with ⟨-, hd⟩ | ⟨-, hd⟩ | ⟨x, -, hd⟩ <;> rw [hd] <;> exact .inl rfl
    | keyUp k => cases (deliver_keyUp_of_running hs k).symm.trans h; exact .inl rfl
    | renderAck => cases (deliver_renderAck_of_running hs).symm.trans h; exact .inl rfl
    | stop => cases (deliver_stop_of_running hs).symm.trans h; exact .inr rfl
  · cases (deliver_of_ended hs e).symm.trans h
    exact .inl rfl

/-- What no event but a Step can change while no key wait is pending: registers, memory and what else an instruction
works on stay, no wait starts, and the machine does not halt. -/
def KeepsProgramState (s t : State) : Prop :=
  s.SameRegsBut t [] ∧ s.SameMemory t ∧ t.I = s.I ∧ t.pc = s.pc ∧ t.stack = s.stack ∧ t.fb = s.fb ∧
    t.draws = s.draws ∧ t.latch = .none ∧ (∀ d, t.status = .halted d → s.status = .halted d)

theorem keepsProgramState_refl {s : State} (hl : s.latch = .none) : KeepsProgramState s s :=
  ⟨fun _ _ => rfl, fun _ => rfl, rfl, rfl, rfl, rfl, rfl, hl, fun _ h => h⟩

theorem KeepsProgramState.trans {s t u : State} (hst : KeepsProgramState s t) (htu : KeepsProgramState t u) :
    KeepsProgramState s u := by
  obtain ⟨hreg, hmem, hI, hpc, hstack, hfb, hdraws, -, hhalt⟩ := hst
  obtain ⟨hreg', hmem', hI', hpc', hstack', hfb', hdraws', hlatch, hhalt'⟩ := htu
  exact ⟨fun r hr => (hreg' r hr).trans (hreg r hr), fun a => (hmem' a).trans (hmem a), hI'.trans hI, hpc'.trans hpc,
    hstack'.trans hstack, hfb'.trans hfb, hdraws'.trans hdraws, hlatch, fun d hd => hhalt d (hhalt' d hd)⟩

theorem keepsProgramState_of_step {s t : State} (hl : s.latch = .none) (he : s.nextEvent ≠ .step)
    (h : step s = .next t) : KeepsProgramState s t := by
  have hhalt : ∀ d, t.status = .halted d → s.status = .halted d := by
    intro d hd
    rcases status_of_deliver_host he h with hsame | hstop
    · rw [← hd, hsame, takeEvent_status]
    · simp [hd] at hstop
  rcases deliver_host_cases he h with ⟨hregs, hI, hpc, hstack, hmem, hfb, -, -, hlatch, -, -, -, -, hdraws, -⟩ |
    ⟨-, x, -, hwait, -⟩
  · simp_all [KeepsProgramState, State.SameRegsBut, State.SameMemory]
  · simp [hl] at hwait

theorem eventAt_zero (s : State) : s.eventAt 0 = s.nextEvent := by
  cases h : s.pending with
  | nil => simp [State.eventAt, nextEvent_of_nil h, h]
  | cons e rest => simp [State.eventAt, nextEvent_of_cons h, h]

/-- Settles O8: the first event is no Step, and the k events after the step are the later ones of the start. -/
theorem withoutStepsNothingExecutes : Obligations.WithoutStepsNothingExecutes := by
  intro k s hl hev
  refine run_induction (P := fun k s => s.latch = .none ∧ ∀ j, j < k → s.eventAt j ≠ .step)
    (R := fun _ => KeepsProgramState) (fun s hs => keepsProgramState_refl hs.1) ?_ k s ⟨hl, hev⟩
  rintro k s t ⟨hl, hev⟩ hstep
  have hkeeps : KeepsProgramState s t :=
    keepsProgramState_of_step hl (eventAt_zero s ▸ hev 0 k.succ_pos) hstep
  have ⟨_, _, _, _, _, _, _, hlatch, _⟩ := hkeeps
  refine ⟨⟨hlatch, fun j hj => ?_⟩, fun u => hkeeps.trans⟩
  rw [(eventsTaken_of_step hstep).eventAt j]
  exact hev (1 + j) (by omega)

end Sys2Proof.Machine
end

section
/-! PROOF. O10 and O15: the Step event and its halts. What status and diagnostic a halting instruction leaves is said
once (`status_or_fatal_of_exec`). -/

namespace Sys2Proof.Machine

/-! ### A halt raised by an instruction's own rule (60_exceptions.md R201, R203) -/

/-- What a check in front of an effect that keeps the status can leave. -/
theorem status_or_fatal_of_ite {c : Prop} [Decidable c] {s u t : State} {reason : FatalReason} {op : Option Word}
    (h : (if c then .next u else .next (s.fatal reason op) : Result) = .next t) (hu : u.status = s.status)
    (hr : reason ≠ .fetchRange) :
    t.status = s.status ∨ ∃ r, r ≠ .fetchRange ∧ t = s.fatal r op := by
  split_ifs at h <;> cases h
  · exact .inl hu
  · exact .inr ⟨reason, hr, rfl⟩

/-- An instruction leaves the status, or it halts with its own word and a reason other than the fetch's. -/
theorem status_or_fatal_of_exec {i : Instr} {s t : State} (h : exec i s = .next t) :
    t.status = s.status ∨ ∃ r, r ≠ .fetchRange ∧ t = s.fatal r (some (encode i)) := by
  cases i with
  | ret =>
    cases hstack : s.stack with
    | nil => cases (exec_ret_of_nil hstack).symm.trans h; exact .inr ⟨.stackUnderflow, nofun, rfl⟩
    | cons a rest => cases (exec_ret_of_cons hstack).symm.trans h; exact .inl rfl
  | skp x | sknp x =>
    simp only [exec, execSkp, execSknp] at h
    cases hk : keyIndex (s.reg x) with
    | some k => simp only [hk] at h; cases h; exact .inl rfl
    | none => simp only [hk] at h; cases h; exact .inr ⟨.keyRange, nofun, rfl⟩
  | call nnn | drw x y n | storeRegs x | loadRegs x => exact status_or_fatal_of_ite h rfl nofun
  | ldB x =>
    by_cases hf : s.cfg.hasFx33 = true
    · exact status_or_fatal_of_ite ((if_pos hf).symm.trans h) rfl nofun
    · cases (exec_ldB_of_unknown (by simpa using hf)).symm.trans h
      exact .inr ⟨.unknownOpcode, nofun, rfl⟩
  | _ => cases h; exact .inl rfl

/-- What an instruction that halts a running machine leaves: the old state with a diagnostic of its pc and its word. -/
theorem halt_of_exec {i : Instr} {s t : State} {d : Diag} (hs : s.status = .running) (h : exec i s = .next t)
    (ht : t.status = .halted d) :
    t = s.setStatus (.halted d) ∧ d.pc = s.pc ∧ d.opcode = some (encode i) ∧ d.reason ≠ .fetchRange := by
  rcases status_or_fatal_of_exec h with hsame | ⟨r, hr, rfl⟩
  · simp [hsame, hs] at ht
  · obtain rfl : (⟨r, s.pc, some (encode i)⟩ : Diag) = d := by simpa using ht
    exact ⟨rfl, rfl, rfl, hr⟩

/-- Settles O15: no event but a Step halts, and of the cases of a Step each that halts has its diagnostic. -/
theorem fatalStepChangesOnlyStatus : Obligations.FatalStepChangesOnlyStatus := by
  intro s t d hs h ht
  have he : s.nextEvent = .step := by
    by_contra he
    rcases status_of_deliver_host he h with hsame | hstop
    · simp [hsame, hs] at ht
    · simp [hstop] at ht
  refine ⟨he, ?_⟩
  have hs' : s.takeEvent.status = .running := (takeEvent_status s).trans hs
  rw [step_of_nextEvent he, State.deliver] at h
  rcases stepEvent_cases s.takeEvent with
    ⟨-, hidle⟩ | ⟨-, -, hp, hhalt⟩ | ⟨-, -, hp, -, hhalt⟩ | ⟨-, -, hp, i, hi, hrun⟩
  · cases hidle.symm.trans h
    simp [hs] at ht
  · cases hhalt.symm.trans h
    cases ht
    exact ⟨rfl, takeEvent_pc s, .inl ⟨rfl, rfl, by simpa using hp⟩⟩
  · cases hhalt.symm.trans h
    cases ht
    exact ⟨rfl, takeEvent_pc s, .inr ⟨nofun, by simp, by simpa using hp⟩⟩
  · obtain ⟨hstate, hpc, hop, hreason⟩ := halt_of_exec hs' (hrun.symm.trans h) ht
    rw [encode_of_decodeWord hi, takeEvent_fetchWord] at hop
    exact ⟨hstate, by simpa using hpc, .inr ⟨hreason, hop, by simpa using hp⟩⟩

/-! ### The Step event by its checks (60_exceptions.md R221) -/

/-- The fetched word is the one whose value is that of the two bytes at pc, high byte first (20_memory.md R53). -/
theorem fetchWord_eq {s : State} {op : Word}
    (h : op.toNat = (s.mem.read s.pc.toNat).toNat * 256 + (s.mem.read (s.pc.toNat + 1)).toNat) : s.fetchWord = op := by
  apply BitVec.eq_of_toNat_eq
  rw [State.fetchWord, wordOfBytes, BitVec.toNat_append, ← Nat.shiftLeft_add_eq_or_of_lt (BitVec.isLt _),
    Nat.shiftLeft_eq, h]

theorem step_of_unknown {s : State} {e : DecodeError} (hs : s.status = .running) (hl : s.latch = .none)
    (he : s.nextEvent = .step) (hp : s.pc.toNat ≤ 0xFFE) (hd : decodeWord s.fetchWord = .error e) :
    step s = .next (s.takeEvent.setStatus (.halted ⟨.unknownOpcode, s.pc, some s.fetchWord⟩)) := by
  have hstep : step s = s.takeEvent.stepEvent := step_of_nextEvent he
  rcases stepEvent_cases s.takeEvent with ⟨hidle, -⟩ | ⟨-, -, hout, -⟩ | ⟨-, -, -, -, hhalt⟩ | ⟨-, -, -, i, hi, -⟩
  · simp [hs, hl] at hidle
  · rw [takeEvent_pc] at hout
    omega
  · rw [hstep, hhalt, State.fatal_def, takeEvent_pc, takeEvent_fetchWord]
  · simp [hd] at hi

theorem step_of_decodeWord {s : State} {i : Instr} (hs : s.status = .running) (hl : s.latch = .none)
    (he : s.nextEvent = .step) (hp : s.pc.toNat ≤ 0xFFE) (hd : decodeWord s.fetchWord = .ok i) :
    step s = exec i s.takeEvent := by
  refine stepRunsDecodedInstruction s i he hs hl hp ?_
  rw [State.fetchWord] at hd
  simp only [decode, hd]

/-- Settles O10, check by check; that a row accepts the word or none does is what the decoder goes by (O3). -/
theorem stepEventFollowsItsRule : Obligations.StepEventFollowsItsRule := by
  intro s he
  refine ⟨step_of_ended, fun _ hl => ?_, fun hs hl hp => ?_, fun hs hl hp op hop => ?_⟩
  · cases hlatch : s.latch with
    | none => exact absurd hlatch hl
    | await x => exact step_of_wait hlatch he
  · exact step_of_pc_out_of_range hs hl he (by omega)
  · have hp' : s.pc.toNat ≤ 0xFFE := by omega
    obtain rfl : s.fetchWord = op := fetchWord_eq hop
    obtain ⟨haccept, hnone⟩ := decoderFollowsOpcodeMap s.fetchWord
    refine ⟨fun h => step_of_unknown hs hl he hp' (hnone h), fun row hrow h => ?_⟩
    obtain ⟨i, hi, hname⟩ := haccept row hrow h
    refine ⟨i, hi, hname, step_of_decodeWord hs hl he hp' hi, fun t d ht hd => ?_⟩
    obtain ⟨hstate, hpc, hword, -⟩ := halt_of_exec ((takeEvent_status s).trans hs) ht hd
    exact ⟨by simpa using hpc, by rw [hword, encode_of_decodeWord hi], hstate⟩

end Sys2Proof.Machine
end

section
/-! PROOF. O13, O59, O57, O12, O56 and O58: construction and reset. Memory after construction lists the addresses whose
byte differs from the unlisted one; that such a list is canonical, and what it reads back as, is said once
(`Memory.listing`). The state after reset is the machine constructed from an empty image (O57), so what holds of every
construction holds of it. -/

namespace Sys2Proof.Machine

/-! ### Memory made from a list of addresses (log 31) -/

/-- The bytes of `f` at the addresses `as`, listed where they differ from the unlisted ones. -/
def Memory.listing (f : Nat → Byte) (as : List Nat) : Memory :=
  as.filterMap fun a => if f a = Memory.unlisted a then none else some (a, f a)

namespace Memory

section
variable {f : Nat → Byte} {b : Nat}

theorem listing_cons_of_eq (h : f b = unlisted b) (as : List Nat) : listing f (b :: as) = listing f as := by
  simp [listing, h]

theorem listing_cons_of_ne (h : f b ≠ unlisted b) (as : List Nat) :
    listing f (b :: as) = (b, f b) :: listing f as := by
  simp [listing, h]

end

theorem listing_eq_nil {f : Nat → Byte} (h : ∀ a, f a = unlisted a) (as : List Nat) : listing f as = [] := by
  simp [listing, h]

theorem read_listing (f : Nat → Byte) (as : List Nat) (a : Nat) :
    (listing f as).read a = if a ∈ as then f a else unlisted a := by
  induction as with
  | nil => rfl
  | cons b as ih =>
    by_cases hb : f b = unlisted b
    · rw [listing_cons_of_eq hb, ih]
      by_cases hab : a = b
      · simp [hab, hb]
      · simp [hab]
    · rw [listing_cons_of_ne hb, read, ih]
      by_cases hab : a = b
      · simp [hab]
      · simp [hab]

/-- Addresses that rise one by one and stay in memory give the canonical form. -/
theorem wfFrom_listing (f : Nat → Byte) {lo n : Nat} (h : lo + n ≤ memSize) :
    (listing f (List.range' lo n)).wfFrom lo = true := by
  induction n generalizing lo with
  | zero => rfl
  | succ n ih =>
    have hrest := ih (lo := lo + 1) (by omega)
    rw [List.range'_succ]
    by_cases hb : f lo = unlisted lo
    · rw [listing_cons_of_eq hb]
      exact wfFrom_mono hrest (Nat.le_succ lo)
    · rw [listing_cons_of_ne hb]
      simp only [wfFrom, Bool.and_eq_true, decide_eq_true_eq]
      exact ⟨⟨⟨le_rfl, by omega⟩, hb⟩, hrest⟩

/-! ### The unlisted bytes (log 3, 5) -/

theorem unlisted_of_lt {a : Nat} (h : a < 80) : unlisted a = Config.standardFont[a] :=
  dif_pos h

theorem unlisted_of_le {a : Nat} (h : 80 ≤ a) : unlisted a = 0 :=
  dif_neg h.not_gt

end Memory

/-! ### Memory after construction (70_reset_and_hazards.md R251) -/

section
variable (cfg : Config) (rom : List Byte)

theorem bootMemory_eq_listing : bootMemory cfg rom = Memory.listing (bootByte cfg rom) (List.range memSize) := rfl

theorem constructed_mem : (constructed cfg rom).mem = bootMemory cfg rom := by rw [constructed]

theorem wf_constructed_mem : (constructed cfg rom).mem.wf = true := by
  rw [constructed_mem, bootMemory_eq_listing, List.range_eq_range']
  exact Memory.wfFrom_listing (bootByte cfg rom) (Nat.zero_add memSize).le

/-- Past the end of memory there is nothing but the unlisted 0. -/
theorem read_constructed_mem (a : Nat) :
    (constructed cfg rom).mem.read a = if a < 4096 then bootByte cfg rom a else 0 := by
  rw [constructed_mem, bootMemory_eq_listing, Memory.read_listing]
  by_cases h : a < 4096
  · rw [if_pos h, if_pos (List.mem_range.2 h)]
  · rw [if_neg h, if_neg (h ∘ List.mem_range.1), Memory.unlisted_of_le (by omega)]

theorem bootByte_font {a : Nat} (h : a < 80) : bootByte cfg rom a = cfg.font[a] :=
  dif_pos h

theorem bootByte_rom {k : Nat} (h : k < rom.length) : bootByte cfg rom (0x200 + k) = rom[k] := by
  have hfont : ¬ 0x200 + k < 80 := by omega
  have hrom : 0x200 ≤ 0x200 + k ∧ 0x200 + k < 0x200 + rom.length := by omega
  simp [bootByte, hfont, hrom, h]

theorem bootByte_free (hz : cfg.zeroInit = true) {a : Nat} (hfont : 80 ≤ a)
    (hrom : a < 0x200 ∨ 0x200 + rom.length ≤ a) : bootByte cfg rom a = 0 := by
  have hout : ¬ (0x200 ≤ a ∧ a < 0x200 + rom.length) := by omega
  simp only [bootByte, dif_neg hfont.not_gt, if_neg hout, if_pos hz]

end

/-! ### Construction (70_reset_and_hazards.md R251 to R255) -/

theorem construct_of_fits (cfg : Config) {rom : List Byte} (h : rom.length ≤ 3584) :
    construct cfg rom = .next (constructed cfg rom) :=
  if_neg h.not_gt

theorem construct_of_too_large (cfg : Config) {rom : List Byte} (h : 3584 < rom.length) :
    construct cfg rom = .fault .romTooLarge :=
  if_pos h

/-- Only an image that fits gives a machine. -/
theorem eq_constructed_of_construct {cfg : Config} {rom : List Byte} {s : State} (h : construct cfg rom = .next s) :
    s = constructed cfg rom := by
  by_cases hfit : rom.length ≤ 3584
  · cases (construct_of_fits cfg hfit).symm.trans h
    rfl
  · cases (construct_of_too_large cfg (not_le.1 hfit)).symm.trans h

/-- Both values of I after construction are addresses of 12 bits (R253). -/
theorem toNat_bootIndex_le (cfg : Config) : (bootIndex cfg).toNat ≤ 0xFFF := by
  unfold bootIndex
  split
  · decide
  · rw [BitVec.toNat_ofNat]
    omega

/-- Settles O13: memory lists ascending addresses, I has 12 bits, the stack is empty and no wait is pending. -/
theorem constructedStateIsSound : Obligations.ConstructedStateIsSound := by
  intro cfg rom s h
  rw [eq_constructed_of_construct h]
  exact ⟨wf_constructed_mem cfg rom, toNat_bootIndex_le cfg, show 0x200 ≤ 0x10FE by decide, Nat.zero_le _, nofun,
    fun hwait => absurd rfl hwait⟩

/-- Settles O59, by the length of the image; memory reads back `bootByte`, region by region. -/
theorem constructionLoadsFontAndRom : Obligations.ConstructionLoadsFontAndRom := by
  intro cfg rom
  refine ⟨fun hfit => ?_, construct_of_too_large cfg⟩
  refine ⟨_, construct_of_fits cfg hfit, rfl, fun a h => ?_, fun k h => ?_, fun hz a hfont hrom => ?_⟩
  · rw [read_constructed_mem, if_pos (by omega), bootByte_font cfg rom h]
  · rw [read_constructed_mem, if_pos (by omega), bootByte_rom cfg rom h]
  · rw [read_constructed_mem, bootByte_free cfg rom hz hfont hrom, ite_self]

/-! ### Reset (70_reset_and_hazards.md R256, R257) -/

/-- Without an image every byte has its unlisted value. -/
theorem bootByte_spec_nil (a : Nat) : bootByte Config.spec [] a = Memory.unlisted a := by
  by_cases h : a < 80
  · rw [bootByte_font _ _ h, Memory.unlisted_of_lt h]
    rfl
  · have hfree : a < 0x200 ∨ 0x200 + [].length (α := Byte) ≤ a := Nat.lt_or_ge a 0x200
    rw [bootByte_free _ _ rfl (not_lt.1 h) hfree, Memory.unlisted_of_le (not_lt.1 h)]

/-- Settles O57: no byte of memory is listed, and every other field has the same value on both sides. -/
theorem resetIsConstructionFromEmptyRom : Obligations.ResetIsConstructionFromEmptyRom := by
  have hmem : bootMemory Config.spec [] = [] := Memory.listing_eq_nil bootByte_spec_nil _
  rw [Obligations.ResetIsConstructionFromEmptyRom, construct_of_fits Config.spec (Nat.zero_le _), constructed, hmem]
  rfl

/-- Settles O12: the state after reset is constructed (O57), so it is sound (O13). -/
theorem resetStateIsSound : Obligations.ResetStateIsSound :=
  constructedStateIsSound Config.spec [] State.reset resetIsConstructionFromEmptyRom

/-- Settles O56: memory is that of a construction (O59), the other fields are as they are written down. -/
theorem resetHoldsConstructionValues : Obligations.ResetHoldsConstructionValues := by
  obtain ⟨s, hs, hpc, hfont, -, hfree⟩ := (constructionLoadsFontAndRom Config.spec []).1 (Nat.zero_le _)
  obtain rfl : State.reset = s := Host.Outcome.next.inj (resetIsConstructionFromEmptyRom.symm.trans hs)
  refine ⟨hpc, fun r => ?_, rfl, rfl, rfl, rfl, fun c r => Framebuffer.pixel_blank c r, rfl, fun k => ?_, rfl, rfl,
    fun a h => ?_, fun a h => hfree rfl a h (Nat.lt_or_ge a 0x200)⟩
  · exact Vector.getElem_replicate r.isLt
  · exact Vector.getElem_replicate k.isLt
  · rw [hfont a h]
    simp [h]

/-- Settles O58: pc is in range, and the word 0x0000 that stands there does not decode. -/
theorem emptyRomHaltsAtFirstStep : Obligations.EmptyRomHaltsAtFirstStep := by
  intro rest
  have hevents : (State.reset.setPending (.step :: rest)).pending = .step :: rest := rfl
  have hp : (State.reset.setPending (.step :: rest)).pc.toNat ≤ 0xFFE := show (0x200 : Word).toNat ≤ 0xFFE by decide
  have hword : (State.reset.setPending (.step :: rest)).fetchWord = 0x0000#16 :=
    show State.reset.fetchWord = 0x0000#16 by decide
  have hunknown : decodeWord 0x0000#16 = .error (.unknownOpcode 0x0000) := by decide
  rw [← hword] at hunknown
  rw [step_of_unknown rfl rfl (nextEvent_of_cons hevents) hp hunknown, takeEvent_of_cons hevents, hword]
  rfl

end Sys2Proof.Machine
end

section
/-! PROOF. O51 and O60: a word that was stored, by an instruction or by `placeWord`, is the word that is fetched. -/

namespace Sys2Proof.Machine

/-! ### Bytes stored by an instruction (20_memory.md R53, R64) -/

/-- The fetched word as a number, its high byte at pc. -/
theorem toNat_fetchWord (s : State) :
    s.fetchWord.toNat = (s.mem.read s.pc.toNat).toNat * 256 + (s.mem.read (s.pc.toNat + 1)).toNat := by
  have hlt : (s.mem.read s.pc.toNat).toNat * 256 + (s.mem.read (s.pc.toNat + 1)).toNat < 2 ^ 16 := by omega
  have hword := (BitVec.toNat_ofNat _ 16).trans (Nat.mod_eq_of_lt hlt)
  rw [fetchWord_eq hword, hword]

/-- Settles O51: both bytes of the fetched word are bytes that the store has written (O48, O47). -/
theorem storedBytesAreFetched : Obligations.StoredBytesAreFetched := by
  intro x s hm
  constructor
  · intro h
    obtain ⟨t, ht, hstored, -⟩ := registerStoreWritesMemory x s hm h
    refine ⟨t, ht, fun u a b hu hab hb hpc => ?_⟩
    have ha : a ≤ x := (Fin.le_def.2 (hab ▸ Nat.le_succ a.val)).trans hb
    rw [State.fetchWord, hu, hpc, hstored a ha, Nat.add_assoc, ← hab, hstored b hb]
  · intro hf h
    obtain ⟨t, ht, hhundreds, htens, hones, -⟩ := (decimalStoreWritesThreeDigits x s).1 hf hm h
    refine ⟨t, ht, fun u hu => ⟨fun hpc => ?_, fun hpc => ?_⟩⟩
    · rw [toNat_fetchWord, hu, hpc, hhundreds, htens]
    · rw [toNat_fetchWord, hu, hpc, htens, hones]

/-! ### A word placed at pc -/

theorem fetchWord_placeWord {s : State} (hm : s.mem.wf = true) (hp : s.pc.toNat ≤ 0xFFE) (w : Word) :
    (s.placeWord w).fetchWord = w := by
  have hread : ∀ k (hk : k < 2), (s.placeWord w).mem.read (s.pc.toNat + k) = [highByte w, lowByte w][k] :=
    Memory.read_writeBytes_inside (vs := [highByte w, lowByte w]) hm (Nat.add_le_add_right hp 2)
  calc (s.placeWord w).fetchWord = wordOfBytes (highByte w) (lowByte w) :=
        congrArg₂ wordOfBytes (hread 0 (by decide)) (hread 1 (by decide))
    _ = w := wordOfBytes_bytes w

theorem decodeWord_of_decodeTableWord {nbits w : Nat} {i : Instr} (h : decodeTableWord nbits w = some i) :
    decodeWord (tableWord nbits w) = .ok i := by
  rw [← wordOfBytes_bytes (tableWord nbits w)]
  unfold decodeTableWord at h
  split at h
  · next hd => cases h; exact decodeWord_of_decode hd
  · cases h

/-- The state made ready has a pc at which a word can be fetched. -/
theorem toNat_pc_readyToFetch_le (s : State) : s.readyToFetch.pc.toNat ≤ 0xFFE := by
  have hpc : s.readyToFetch.pc = if fetchInRange s.pc then s.pc else 0x200 := rfl
  rw [hpc]
  split
  · next h => exact Nat.le_of_succ_le_succ (of_decide_eq_true h)
  · decide

/-- Settles O60: the state is ready to fetch, and the word it fetches is the one placed. -/
theorem placedWordIsExecutedNext : Obligations.PlacedWordIsExecutedNext := by
  intro s w i hm hd
  have hevents : (s.withFetchWord 16 w).pending = [.step] := rfl
  have hp : (s.withFetchWord 16 w).pc.toNat ≤ 0xFFE := toNat_pc_readyToFetch_le s
  have hword : (s.withFetchWord 16 w).fetchWord = tableWord 16 w :=
    fetchWord_placeWord (s := s.readyToFetch) hm hp (tableWord 16 w)
  have hdecode : decodeWord (s.withFetchWord 16 w).fetchWord = .ok i :=
    hword ▸ decodeWord_of_decodeTableWord hd
  rw [step_of_decodeWord rfl rfl (nextEvent_of_cons hevents) hp hdecode, takeEvent_of_cons hevents]

end Sys2Proof.Machine
end
